-- ==== Sys2Proof/Word.lean ====
section
/-! DEFINITION. The word widths of the core (00_scope.md section 5): a byte, the 16-bit payload of a frame and the
32-bit frame word. Bit 0 is the least significant bit (R5). -/

namespace Sys2Proof

/-- A byte, `u8`. -/
abbrev Byte := BitVec 8

/-- A 16-bit payload, `u16`. -/
abbrev Half := BitVec 16

/-- A 32-bit word, `u32` or `i32` (R5). -/
abbrev Word := BitVec 32

end Sys2Proof
end

