-- ==== Sys2Proof/Config.lean ====
section
/-! DEFINITION. What is fixed for one core and is not state (R30): the parameters of 00_scope.md section 4 that have a
default, the OPEN ones (constants with no body), and the one duration the spec leaves undefined. -/

namespace Sys2Proof.Config

/-- `DEVICE_PATH`, OPEN (R41, D20). -/
opaque devicePath : String

/-- `SPI_MODE`, OPEN (R42, D20). -/
opaque spiMode : Nat

/-- `SPI_MAX_HZ`, OPEN (R42, D20). -/
opaque spiMaxHz : Nat

/-- `SPI_WORD_BITS`, OPEN (R42, D20). -/
opaque spiWordBits : Nat

/-- One entry of the Error Table (R26). -/
structure ErrorEntry where
  /-- human description -/
  text : String
  /-- reboot-required flag: diagnostic only, the core never acts on it (R182) -/
  reboot : Bool
  deriving DecidableEq, Repr, Inhabited

/-- `ERROR_TABLE`, ten entries indexed 0 to 9, OPEN (R26, D26). -/
opaque errorTable : Fin 10 → ErrorEntry

/-- `STATUS_TABLE`, one text for each return-status code, OPEN (R27, D26). -/
opaque statusTable : BitVec 2 → String

/-- `T_POWERUP_MS` (R225, R226). -/
def powerupMs : Nat := 10

/-- `T_MODE_MS` (R225, R226). -/
def modeMs : Nat := 5

/-- `T_XFER_MS` (R225, R226). -/
def xferMs : Nat := 1

/-- The settle duration after `CMD_SW_RESET`, which R226 leaves undefined "because the word is never sent":
a free value (log 14). -/
opaque swResetSettleMs : Nat

/-- `ID_REQUIRES_VALID`, default false (R138, U7). -/
def idRequiresValid : Bool := false

/-- `STATUS_REQUIRES_CRC`, default false (R151, U8). -/
def statusRequiresCrc : Bool := false

/-- The two ways of computing a temperature that `TEMP_ARITH` chooses between (R117, U6). -/
inductive TempArith where
  /-- exact rational arithmetic, rule R114 -/
  | exact
  /-- every intermediate rounded to binary32, U6 -/
  | binary32
  deriving DecidableEq, Repr

/-- `TEMP_ARITH`, default `exact` (R114, U6). -/
def tempArith : TempArith := .exact

end Sys2Proof.Config
end

