-- ==== Sys2Proof/Syntax.lean ====
section
/-! DEFINITION. The names the spec uses (command words, axes, modes, frames) and the instructions: one constructor of
`Instr` for each row of the opcode table, and the two formats in which a row is presented, `HOST4` at the operation port
and `WIRE32` at the sequencer (R60, R75). -/

namespace Sys2Proof

/-- The twelve entries of the `CMD` table (R24, R66). -/
inductive Cmd where
  | readAccX | readAccY | readAccZ | readTemp | readStatus | readMode
  | writeMode1 | writeMode2 | writeMode3 | writeMode4 | readWhoami | swReset
  deriving DecidableEq, Repr

/-- The axes of READ_ACC (R76). -/
inductive Axis where
  | x | y | z
  deriving DecidableEq, Repr

/-- The Operating Modes (R13). -/
inductive Mode where
  | mode1 | mode2 | mode3 | mode4
  deriving DecidableEq, Repr

/-- The four bytes of a frame in transmission order: `b0` first, holding bits 31:24 of the word (R5, R48). -/
structure Frame where
  b0 : Byte
  b1 : Byte
  b2 : Byte
  b3 : Byte
  deriving DecidableEq, Repr

/-- What the host presents at the operation port: `op[3:0]` and the two operand inputs (R75). -/
structure HostWord where
  op : BitVec 4
  a : Word
  b : Word
  deriving DecidableEq, Repr

/-- The instructions. Host operations carry the operands their row uses; an operand the row ignores is no field, and
ignored BITS of a used operand are 0 in a well-formed instruction (`Instr.wf`). -/
inductive Instr where
  /-- `INIT` (R134) -/
  | init
  /-- `CHANGE_MODE`, mode selector (R140) -/
  | changeMode (sel : Word)
  /-- `READ_TEMP` (R144) -/
  | readTemp
  /-- `READ_ACC`, axis selector (R147) -/
  | readAcc (axis : Word)
  /-- `READ_STATUS` (R150) -/
  | readStatus
  /-- `CRC_COMPUTE`, three bytes in bits 31:8 (R93) -/
  | crcCompute (a : Word)
  /-- `CRC_CHECK`, frame word (R94) -/
  | crcCheck (a : Word)
  /-- `ENCODE`, request word (R100) -/
  | encodeFrame (a : Word)
  /-- `ASSEMBLE`, four bytes, byte 0 in bits 31:24 (R101) -/
  | assembleFrame (a : Word)
  /-- `DECODE`, four bytes, byte 0 in bits 31:24 (R102) -/
  | decodeFrame (a : Word)
  /-- `CONV_ACCEL`, raw in bits 15:0 of `a`, divisor `b` (R111) -/
  | convAccel (a b : Word)
  /-- `CONV_TEMP`, raw in bits 15:0 (R114) -/
  | convTemp (a : Word)
  /-- `SENS`, mode selector (R110) -/
  | sens (sel : Word)
  /-- reserved op code 0x0 (R74) -/
  | reserved0
  /-- reserved op code 0x6 (R74) -/
  | reserved6
  /-- reserved op code 0x7 (R74) -/
  | reserved7
  /-- `CMD_READ_ACC_X` (R160) -/
  | cmdReadAccX
  /-- `CMD_READ_ACC_Y` (R161) -/
  | cmdReadAccY
  /-- `CMD_READ_ACC_Z` (R162) -/
  | cmdReadAccZ
  /-- `CMD_READ_TEMP` (R163) -/
  | cmdReadTemp
  /-- `CMD_READ_STATUS` (R164) -/
  | cmdReadStatus
  /-- `CMD_READ_MODE` (R165) -/
  | cmdReadMode
  /-- `CMD_WRITE_MODE1` (R166) -/
  | cmdWriteMode1
  /-- `CMD_WRITE_MODE2` (R167) -/
  | cmdWriteMode2
  /-- `CMD_WRITE_MODE3` (R168) -/
  | cmdWriteMode3
  /-- `CMD_WRITE_MODE4` (R169) -/
  | cmdWriteMode4
  /-- `CMD_READ_WHOAMI` (R170) -/
  | cmdReadWhoami
  /-- `CMD_SW_RESET` (R171) -/
  | cmdSwReset
  deriving DecidableEq, Repr

/-- An encoded instruction in its format: a presentation at the host port or a 32-bit request word (R60, R75). -/
inductive Code where
  | host (h : HostWord)
  | wire (w : Word)
  deriving DecidableEq, Repr

end Sys2Proof
end

