-- ==== Sys2Proof/WellFormed.lean ====
section
/-! DEFINITION. Well-formed instructions: the operand bits a row of the opcode table calls "ignored" are 0. Mode and
axis selectors may be any 32-bit value: an unrecognized one is caller misuse with a stated effect, not an ill-formed
operation (R74, R76). -/

namespace Sys2Proof

/-- `CRC_COMPUTE` ignores bits 7:0 of its operand (R93). -/
def ignoredLow8Zero (a : Word) : Bool := a &&& 0x000000FF#32 == 0#32

/-- `CONV_ACCEL` and `CONV_TEMP` ignore bits 31:16 of `opnd_a` (R111, R114). -/
def ignoredHigh16Zero (a : Word) : Bool := a &&& 0xFFFF0000#32 == 0#32

/-- The instruction carries nothing in the operand bits its row ignores. -/
def Instr.wf : Instr → Bool
  | .crcCompute a => ignoredLow8Zero a
  | .convAccel a _ => ignoredHigh16Zero a
  | .convTemp a => ignoredHigh16Zero a
  | .init | .changeMode _ | .readTemp | .readAcc _ | .readStatus | .crcCheck _ | .encodeFrame _ | .assembleFrame _
  | .decodeFrame _ | .sens _ | .reserved0 | .reserved6 | .reserved7 => true
  | .cmdReadAccX | .cmdReadAccY | .cmdReadAccZ | .cmdReadTemp | .cmdReadStatus | .cmdReadMode | .cmdWriteMode1
  | .cmdWriteMode2 | .cmdWriteMode3 | .cmdWriteMode4 | .cmdReadWhoami | .cmdSwReset => true

end Sys2Proof
end

