-- ==== Sys2Proof/Decode.lean ====
section
/-! DEFINITION. The `CMD` table, the decoder of both formats and the encoder (30_encoding.md). A host presentation always
decodes: all sixteen op codes are rows of the table. A request word decodes when it is one of the twelve `CMD` words;
the core supports no other word (R65). -/

namespace Sys2Proof

/-- The six opcode bits 31:26 of a command word (R66). -/
def Cmd.opcode : Cmd → BitVec 6
  | .readAccX => 0x01#6
  | .readAccY => 0x02#6
  | .readAccZ => 0x03#6
  | .readTemp => 0x05#6
  | .readStatus => 0x06#6
  | .readMode => 0x0D#6
  | .writeMode1 | .writeMode2 | .writeMode3 | .writeMode4 | .swReset => 0x2D#6
  | .readWhoami => 0x10#6

/-- The data bits 23:8 of a command word, zero for reads (R61, R66). -/
def Cmd.data : Cmd → Half
  | .writeMode2 => 0x0001#16
  | .writeMode3 => 0x0002#16
  | .writeMode4 => 0x0003#16
  | .swReset => 0x0020#16
  | .readAccX | .readAccY | .readAccZ | .readTemp | .readStatus | .readMode | .writeMode1 | .readWhoami => 0x0000#16

/-- The precomputed CRC bits 7:0 of a command word (R63, R66). -/
def Cmd.crc : Cmd → Byte
  | .readAccX => 0xF7#8
  | .readAccY => 0xFD#8
  | .readAccZ => 0xFB#8
  | .readTemp => 0xEF#8
  | .readStatus => 0xE5#8
  | .readMode => 0xDF#8
  | .writeMode1 => 0x1F#8
  | .writeMode2 => 0x02#8
  | .writeMode3 => 0x25#8
  | .writeMode4 => 0x38#8
  | .readWhoami => 0x91#8
  | .swReset => 0x98#8

/-- The command word, laid out `opcode(6) | 00 | data(16) | crc(8)` (R60 to R63). The values are the defaults of the
parameters `CMD_*`, from general knowledge (D8). PRESUMED (log 8). -/
def Cmd.word (c : Cmd) : Word := c.opcode ++ 0b00#2 ++ c.data ++ c.crc

/-- The table's entries in the order of R66. -/
def Cmd.all : List Cmd :=
  [.readAccX, .readAccY, .readAccZ, .readTemp, .readStatus, .readMode, .writeMode1, .writeMode2, .writeMode3,
   .writeMode4, .readWhoami, .swReset]

/-- The entry of the `CMD` table with this word. -/
def Cmd.ofWord? (w : Word) : Option Cmd := Cmd.all.find? (fun c => c.word == w)

/-- The instruction that a command word is. -/
def Cmd.instr : Cmd → Instr
  | .readAccX => .cmdReadAccX
  | .readAccY => .cmdReadAccY
  | .readAccZ => .cmdReadAccZ
  | .readTemp => .cmdReadTemp
  | .readStatus => .cmdReadStatus
  | .readMode => .cmdReadMode
  | .writeMode1 => .cmdWriteMode1
  | .writeMode2 => .cmdWriteMode2
  | .writeMode3 => .cmdWriteMode3
  | .writeMode4 => .cmdWriteMode4
  | .readWhoami => .cmdReadWhoami
  | .swReset => .cmdSwReset

/-- Why a code decodes to no instruction. -/
inductive DecodeError where
  /-- the 32-bit word is none of the twelve `CMD` words (R65, R72) -/
  | noSuchCommand (w : Word)
  deriving DecidableEq, Repr

/-- Bits 31:8 of an operand, the three bytes that `CRC_COMPUTE` uses (R93). -/
def keepHigh24 (a : Word) : Word := a &&& 0xFFFFFF00#32

/-- Bits 15:0 of an operand, the raw value that the converter uses (R111, R114). -/
def keepLow16 (a : Word) : Word := a &&& 0x0000FFFF#32

/-- The operation a host presentation asks for: the sixteen op codes of R75, three of them reserved (R74). Ignored
operands are dropped and ignored operand bits are cleared (log 17). -/
def decodeHost (h : HostWord) : Instr :=
  match h.op.toNat with
  | 0x0 => .reserved0
  | 0x1 => .init
  | 0x2 => .changeMode h.a
  | 0x3 => .readTemp
  | 0x4 => .readAcc h.a
  | 0x5 => .readStatus
  | 0x6 => .reserved6
  | 0x7 => .reserved7
  | 0x8 => .crcCompute (keepHigh24 h.a)
  | 0x9 => .crcCheck h.a
  | 0xA => .encodeFrame h.a
  | 0xB => .assembleFrame h.a
  | 0xC => .decodeFrame h.a
  | 0xD => .convAccel (keepLow16 h.a) h.b
  | 0xE => .convTemp (keepLow16 h.a)
  | _ => .sens h.a

/-- The wire command a 32-bit request word is (R66). -/
def decodeWire (w : Word) : Except DecodeError Instr :=
  match Cmd.ofWord? w with
  | some c => .ok c.instr
  | none => .error (.noSuchCommand w)

/-- The decoder. -/
def decode : Code → Except DecodeError Instr
  | .host h => .ok (decodeHost h)
  | .wire w => decodeWire w

/-- The code of an instruction; operands its row ignores are presented as 0. -/
def encode : Instr → Code
  | .reserved0 => .host ⟨0x0#4, 0, 0⟩
  | .init => .host ⟨0x1#4, 0, 0⟩
  | .changeMode sel => .host ⟨0x2#4, sel, 0⟩
  | .readTemp => .host ⟨0x3#4, 0, 0⟩
  | .readAcc axis => .host ⟨0x4#4, axis, 0⟩
  | .readStatus => .host ⟨0x5#4, 0, 0⟩
  | .reserved6 => .host ⟨0x6#4, 0, 0⟩
  | .reserved7 => .host ⟨0x7#4, 0, 0⟩
  | .crcCompute a => .host ⟨0x8#4, a, 0⟩
  | .crcCheck a => .host ⟨0x9#4, a, 0⟩
  | .encodeFrame a => .host ⟨0xA#4, a, 0⟩
  | .assembleFrame a => .host ⟨0xB#4, a, 0⟩
  | .decodeFrame a => .host ⟨0xC#4, a, 0⟩
  | .convAccel a b => .host ⟨0xD#4, a, b⟩
  | .convTemp a => .host ⟨0xE#4, a, 0⟩
  | .sens sel => .host ⟨0xF#4, sel, 0⟩
  | .cmdReadAccX => .wire Cmd.readAccX.word
  | .cmdReadAccY => .wire Cmd.readAccY.word
  | .cmdReadAccZ => .wire Cmd.readAccZ.word
  | .cmdReadTemp => .wire Cmd.readTemp.word
  | .cmdReadStatus => .wire Cmd.readStatus.word
  | .cmdReadMode => .wire Cmd.readMode.word
  | .cmdWriteMode1 => .wire Cmd.writeMode1.word
  | .cmdWriteMode2 => .wire Cmd.writeMode2.word
  | .cmdWriteMode3 => .wire Cmd.writeMode3.word
  | .cmdWriteMode4 => .wire Cmd.writeMode4.word
  | .cmdReadWhoami => .wire Cmd.readWhoami.word
  | .cmdSwReset => .wire Cmd.swReset.word

/-- The code that `nbits` bits `w` of an opcode-table row stand for. The table gives a `HOST4` row its op code only
(operands are 0), a `WIRE32` row its 32 bits; nothing else has a format. -/
def codeOfTable (nbits w : Nat) : Option Code :=
  if nbits = 32 then if w < 2 ^ 32 then some (.wire (BitVec.ofNat 32 w)) else none
  else if nbits ≤ 8 then if w < 2 ^ 4 then some (.host ⟨BitVec.ofNat 4 w, 0, 0⟩) else none
  else none

/-- The instruction the decoder reads from an instruction whose bits, numbered as the opcode table numbers them, are
`w`. -/
def decodeTableWord (nbits w : Nat) : Option Instr :=
  match codeOfTable nbits w with
  | none => none
  | some c =>
    match decode c with
    | .ok i => some i
    | .error _ => none

end Sys2Proof
end

