-- ==== Sys2Proof/Machine/State.lean ====
section
/-! DEFINITION. The state of the core (10_state.md), its value after reset (R31, R210) and the reasons a step can stop.
State is plain data. `port` and `transport` are the model's own: the inputs the host and the transport have
ready (R30, R44, log 2). -/

namespace Sys2Proof.Machine

/-- `cstate`, the controller state (R11). -/
inductive CState where
  /-- constructed, transport not yet opened -/
  | uninit
  /-- transport opened, the power-up sequence is running -/
  | initializing
  /-- power-up sequence finished, queries accepted -/
  | operational
  /-- a transport call failed, terminal until reset -/
  | faulted
  deriving DecidableEq, Repr

/-- The transport handle: opaque to the core (R12). Its carrier is log 20. -/
abbrev Handle := Nat

/-- `result.outcome` (R77). -/
inductive OutcomeCode where
  /-- no operation has completed since reset -/
  | none
  /-- `success` (for INIT, the identity check) is true -/
  | ok
  /-- the operation completed and its `success` is false -/
  | fail
  /-- a transport call failed during the operation -/
  | fault
  /-- the operation has no meaning in the current state, or its op code is reserved -/
  | refused
  deriving DecidableEq, Repr

/-- `result.value` of the operations that return one (R79). -/
inductive Value where
  /-- `temp_c100`, hundredths of a degree Celsius, and `temp_f32` (R114, R119) -/
  | temp (c100 : Int) (f32 : Word)
  /-- `acc_q`, exact, in g, and `acc_f32` (R111, R118) -/
  | acc (q : Rat) (f32 : Word)
  /-- the checksum of CRC_COMPUTE (R93) -/
  | checksum (c : Byte)
  /-- the four bytes of ENCODE (R100) -/
  | bytes (f : Frame)
  /-- the word of ASSEMBLE (R101) -/
  | word (w : Word)
  /-- the fields of DECODE (R102) -/
  | fields (rs : BitVec 2) (data : Half) (crc : Byte)
  /-- the divisor of SENS (R110) -/
  | divisor (d : Word)
  deriving DecidableEq, Repr

/-- `result.diag`: a valid bit and an error-bit position (R21, R152). -/
inductive Diag where
  /-- the spec gives it no value (R31, R79, R186) -/
  | unspecified
  /-- valid bit 0; the position is unspecified -/
  | noBit
  /-- valid bit 1 and the position -/
  | bit (p : BitVec 4)
  deriving DecidableEq, Repr

/-- The result port (R21). `value` is `none` where the operation returns nothing and where the spec gives the field no
value (R79: "a model must not give it a value", log 5). -/
structure Result where
  outcome : OutcomeCode
  value : Option Value
  diag : Diag
  deriving DecidableEq, Repr

/-- The Response Frame record `resp` (R20). -/
structure Resp where
  rs : BitVec 2
  data : Half
  crc : Byte
  isValid : Bool
  deriving DecidableEq, Repr

/-- The working registers of the CRC unit (R18, R90, R91). -/
structure CrcUnit where
  crc : Byte
  poly : Byte
  adder : Bool
  deriving DecidableEq, Repr

/-- The Boolean results of R22 other than `resp.isValid`. -/
structure Flags where
  /-- written by CRC_CHECK and by the check inside Request (R94) -/
  crcOk : Bool
  /-- written by CHANGE_MODE and the queries -/
  success : Bool
  /-- written by INIT (R138) -/
  idOk : Bool
  deriving DecidableEq, Repr

/-- The operation in progress (R16). `wire w` is the model's own: one request word issued outside any host operation,
which no operation of the core does (log 13). -/
inductive SeqOp where
  | init
  | readTemp
  | readAcc (a : Axis)
  | readStatus
  | wire (w : Word)
  deriving DecidableEq, Repr

/-- The sequencer: idle, or the operation in progress and the number of its steps already completed (R16). -/
inductive Seq where
  | idle
  | busy (op : SeqOp) (step : Nat)
  deriving DecidableEq, Repr

/-- A transport call made by the core, or a delay it asked for (R23). An event holds the call's arguments and what it
returned; the handle passed is recorded as well (R12, log 16). -/
inductive Event where
  /-- `open(path)`; the handle, or `none` for an error (R41) -/
  | opened (path : String) (answer : Option Handle)
  /-- `configure(handle, clockPolarityMode, maxFrequencyHz, wordSizeBits)` and its success (R42) -/
  | configured (handle : Option Handle) (mode hz bits : Nat) (ok : Bool)
  /-- `Xfer(tx)` and its result: the four bytes received, or `none` for `Err` (R43) -/
  | xfer (handle : Option Handle) (tx : Frame) (rx : Option Frame)
  /-- `Delay(ms)` (R225) -/
  | delay (ms : Nat)
  deriving DecidableEq, Repr

/-- What the host presents next: an operation, or reset (R75, R210). -/
inductive PortInput where
  | op (h : HostWord)
  | reset
  deriving DecidableEq, Repr

/-- The answers the transport has ready, one list for each call (R40, R44). An answer to a transfer is the bytes it
returned, of whatever number (R46), or `none` for an error. A call whose list is empty has not returned yet (R230). -/
structure Transport where
  opens : List (Option Handle)
  configures : List Bool
  xfers : List (Option (List Byte))
  deriving DecidableEq, Repr

/-- The state of the core. -/
structure State where
  /-- controller state (R11) -/
  cstate : CState
  /-- transport handle and its valid bit (R12) -/
  handle : Option Handle
  /-- Operating Mode (R13) -/
  mode : Mode
  /-- sensitivity divisor in force, i32 (R14) -/
  sens : Word
  /-- sequencer (R16) -/
  seq : Seq
  /-- request word being sent (R17); after an operation ends, the last one sent (log 29) -/
  txWord : Word
  /-- word reassembled from the bytes received (R17); after an operation ends, the last one (log 29) -/
  rxWord : Word
  /-- CRC unit's registers (R18) -/
  crcUnit : CrcUnit
  /-- Response Frame (R20); after an operation ends, the last one (log 29) -/
  resp : Resp
  /-- Boolean results (R22) -/
  flags : Flags
  /-- result port (R21) -/
  result : Result
  /-- events, oldest first (R23) -/
  trace : List Event
  /-- model's own: what the host presents, next first -/
  port : List PortInput
  /-- model's own: the transport's answers, next first -/
  transport : Transport
  deriving DecidableEq, Repr

/-- The core right after reset (R31, R210): the values the spec gives; the registers it leaves unspecified hold 0
(DESIGN CHOICE, log 4), the value part of the result holds no value (log 5), no input is waiting (log 2). -/
def State.reset : State where
  cstate := .uninit
  handle := none
  mode := .mode3
  sens := 5400#32
  seq := .idle
  txWord := 0#32
  rxWord := 0#32
  crcUnit := ⟨0#8, 0#8, false⟩
  resp := ⟨0#2, 0#16, 0#8, false⟩
  flags := ⟨false, false, false⟩
  result := ⟨.none, none, .unspecified⟩
  trace := []
  port := []
  transport := ⟨[], [], []⟩

/-- Why the machine stops with a fault. -/
inductive Fault where
  /-- The sequencer stands at a step its operation does not have. Raised by `step` alone, in states no run reaches
  (R16). Safe: the machine stops where the spec describes no state. -/
  | sequencerOffEnd
  deriving DecidableEq, Repr

/-- Why an instruction has no meaning. -/
inductive Refusal where
  /-- The instruction has no meaning in the model yet. Raised by the refused arms of `exec`. Safe. -/
  | notModelled (mnemonic : String)
  /-- A host operation executed while another is in progress: "undefined" (R133, R224, U3). Raised by every host
  operation's meaning; `step` never asks for it, since it accepts an operation only when the sequencer is idle. Safe. -/
  | operationInFlight
  /-- The sequencer holds a request word that is none of the twelve `CMD` words (R65). Raised by `step` for the model's
  own `SeqOp.wire`. Safe. -/
  | noSuchCommand (w : Word)
  deriving DecidableEq, Repr

end Sys2Proof.Machine
end

