-- ==== Sys2Proof/Machine/Operands.lean ====
section
/-! DEFINITION. Operand forms: the bytes and fields of a frame word (R48, R60), the selectors of modes and axes (R76), the
operands of the unit operations (R75), and the numeric codes of the enumerations (R11, R13, R77). -/

namespace Sys2Proof.Machine

/-- ENCODE: a word as four bytes, most significant byte first (R48, R100). -/
def frameOf (w : Word) : Frame :=
  ⟨w.extractLsb' 24 8, w.extractLsb' 16 8, w.extractLsb' 8 8, w.extractLsb' 0 8⟩

/-- ASSEMBLE: four bytes as a word, `b0` in bits 31:24 (R48, R101). -/
def wordOf (f : Frame) : Word := f.b0 ++ f.b1 ++ f.b2 ++ f.b3

/-- Bits 25:24 of a word: `rs` of a response, reserved in a request (R60, R102). -/
def rsField (w : Word) : BitVec 2 := w.extractLsb' 24 2

/-- Bits 23:8 of a word: the payload (R60, R102). -/
def dataField (w : Word) : Half := w.extractLsb' 8 16

/-- Bits 7:0 of a word: the trailer (R60, R102). -/
def crcField (w : Word) : Byte := w.extractLsb' 0 8

/-- Return-status codes (R70). -/
def rsStartup : BitVec 2 := 0#2

/-- Return-status codes (R70). -/
def rsNormal : BitVec 2 := 1#2

/-- Return-status codes (R70). -/
def rsErrorReserved : BitVec 2 := 2#2

/-- Return-status codes (R70). -/
def rsError : BitVec 2 := 3#2

/-- The number of a mode, stored and shown on `mode_out` (R13, R78). -/
def modeCode : Mode → BitVec 3
  | .mode1 => 1#3
  | .mode2 => 2#3
  | .mode3 => 3#3
  | .mode4 => 4#3

/-- The number of a controller state, shown on `cstate_out` (R11, R78). -/
def cstateCode : CState → BitVec 2
  | .uninit => 0#2
  | .initializing => 1#2
  | .operational => 2#2
  | .faulted => 3#2

/-- The number of an outcome (R77). -/
def outcomeCode : OutcomeCode → BitVec 3
  | .none => 0#3
  | .ok => 1#3
  | .fail => 2#3
  | .fault => 3#3
  | .refused => 4#3

/-- Mode selector: 1 to 4; every other value is unrecognized (R76). -/
def modeOf? (sel : Word) : Option Mode :=
  match sel.toNat with
  | 1 => some .mode1
  | 2 => some .mode2
  | 3 => some .mode3
  | 4 => some .mode4
  | _ => none

/-- Axis selector: 0, 1, 2; every other value is invalid (R76). -/
def axisOf? (sel : Word) : Option Axis :=
  match sel.toNat with
  | 0 => some .x
  | 1 => some .y
  | 2 => some .z
  | _ => none

/-- The command word of an axis (R147). -/
def axisCmd : Axis → Cmd
  | .x => .readAccX
  | .y => .readAccY
  | .z => .readAccZ

/-- The raw operand of the converter: `opnd_a[15:0]`, unsigned (R111, R114). -/
def rawOperand (a : Word) : Half := a.extractLsb' 0 16

/-- A transport's answer as the result of `Xfer`: exactly four bytes, else `Err` (R43, R46). -/
def xferResult : Option (List Byte) → Option Frame
  | some [b0, b1, b2, b3] => some ⟨b0, b1, b2, b3⟩
  | _ => none

/-- `cstate_out[1:0]` (R78). -/
def State.cstateOut (s : State) : BitVec 2 := cstateCode s.cstate

/-- `mode_out[2:0]` (R78). -/
def State.modeOut (s : State) : BitVec 3 := modeCode s.mode

/-- `sens_out[31:0]` (R78). -/
def State.sensOut (s : State) : Word := s.sens

end Sys2Proof.Machine
end

