-- ==== Sys2Proof/Machine/Converter.lean ====
section
/-! DEFINITION. The Unit Converter's arithmetic (42_convert.md): the divisor table, the exact conversions in `Q`, the two
roundings `rhaz` and `rne32`, and the all-binary32 temperature pipeline that U6 describes as an alternative. -/

namespace Sys2Proof.Machine

/-- The divisor of a mode (R25, R110), kept exactly as labelled (R121). -/
def sensOf : Mode → Word
  | .mode1 => 2700#32
  | .mode2 => 1350#32
  | .mode3 => 5400#32
  | .mode4 => 5400#32

/-- The mode applied on an unrecognized selector, `FALLBACK_MODE` (R110, R142). -/
def fallbackMode : Mode := .mode1

/-- The mode INIT selects, `INIT_MODE` (R136). -/
def initMode : Mode := .mode3

/-- `SENS` (R110): the divisor and the success indicator. -/
def sensLookup (sel : Word) : Word × Bool :=
  match modeOf? sel with
  | some m => (sensOf m, true)
  | none => (sensOf fallbackMode, false)

/-- `CONV_ACCEL` for a nonzero divisor (R111): the unsigned raw value over the signed divisor, exactly. -/
def convAccel (raw : Half) (div : Word) : Rat := (raw.toNat : Rat) / (div.toInt : Rat)

/-- `rhaz` (R115): nearest integer, a tie going away from zero. -/
def rhaz (q : Rat) : Int := if q < 0 then -(-q + 1 / 2).floor else (q + 1 / 2).floor

/-- Whether `2 ^ e ≤ n / d`. -/
def powLe (n d : Nat) (e : Int) : Bool :=
  if 0 ≤ e then decide (d * 2 ^ e.toNat ≤ n) else decide (d ≤ n * 2 ^ (-e).toNat)

/-- The binary32 exponent of the positive number `n / d`: `⌊log₂ (n / d)⌋`, not below the least normal one. -/
def exponent32 (n d : Nat) : Int :=
  let e : Int := (n.log2 : Int) - (d.log2 : Int)
  max (-126) (if powLe n d e then e else e - 1)

/-- `N / D` rounded to the nearest natural number, a tie going to the even one. -/
def rneDiv (N D : Nat) : Nat :=
  let r := N % D
  if D < 2 * r ∨ (2 * r = D ∧ N / D % 2 = 1) then N / D + 1 else N / D

/-- The significand of the positive number `n / d` in units of `2 ^ (e - 23)`. -/
def significand32 (n d : Nat) (e : Int) : Nat :=
  if e ≤ 23 then rneDiv (n * 2 ^ (23 - e).toNat) d else rneDiv n (d * 2 ^ (e - 23).toNat)

/-- The bit pattern of the positive number `n / d`. A significand that rounds up to `2 ^ 24` carries into the exponent
field; a number beyond the greatest finite one gives infinity, which no rule of the spec reaches (log 22). -/
def magnitude32 (n d : Nat) : Nat :=
  let e := exponent32 n d
  min ((e + 126).toNat * 2 ^ 23 + significand32 n d e) 0x7F800000

/-- `rne32` (R120): the bit pattern of the binary32 value nearest to `q`, a tie going to the even fraction. -/
def rne32 (q : Rat) : Word :=
  if q.num = 0 then 0#32
  else if q < 0 then BitVec.ofNat 32 (2 ^ 31 + magnitude32 q.num.natAbs q.den)
  else BitVec.ofNat 32 (magnitude32 q.num.natAbs q.den)

/-- The number a binary32 bit pattern stands for, for patterns that are neither infinities nor NaNs (R120). -/
def f32Value (w : Word) : Rat :=
  let e : Nat := (w.extractLsb' 23 8).toNat
  let f : Nat := (w.extractLsb' 0 23).toNat
  let m : Nat := if e = 0 then f else 2 ^ 23 + f
  let k : Int := (max e 1 : Nat) - 150
  let v : Rat := if 0 ≤ k then (m : Rat) * (2 ^ k.toNat : Nat) else (m : Rat) / (2 ^ (-k).toNat : Nat)
  if w.msb then -v else v

/-- `q` rounded to binary32. -/
def round32 (q : Rat) : Rat := f32Value (rne32 q)

/-- The exact temperature in degrees Celsius, `-273.15 + raw / 18.9` (R114). -/
def exactTemp (raw : Half) : Rat := -27315 / 100 + (raw.toNat : Rat) / (189 / 10)

/-- `CONV_TEMP` in exact arithmetic: hundredths of a degree (R114). -/
def tempExact (raw : Half) : Int := rhaz (100 * exactTemp raw)

/-- `CONV_TEMP` with every intermediate rounded to binary32, the constants too (U6; the reading is log 11). -/
def tempBinary32 (raw : Half) : Int :=
  let quotient := round32 ((raw.toNat : Rat) / round32 (189 / 10))
  let celsius := round32 (round32 (-27315 / 100) + quotient)
  rhaz (round32 (100 * celsius))

/-- `CONV_TEMP` under a choice of `TEMP_ARITH` (R114, U6). -/
def tempWith (arith : Config.TempArith) (raw : Half) : Int :=
  match arith with
  | .exact => tempExact raw
  | .binary32 => tempBinary32 raw

/-- `temp_c100` (R114), under the core's `TEMP_ARITH`. -/
def convTemp (raw : Half) : Int := tempWith Config.tempArith raw

/-- `acc_q` with its binary32 image (R111, R118). -/
def accValue (raw : Half) (div : Word) : Value := .acc (convAccel raw div) (rne32 (convAccel raw div))

/-- `temp_c100` with its binary32 image (R114, R119). -/
def tempValue (raw : Half) : Value := .temp (convTemp raw) (rne32 ((convTemp raw : Rat) / 100))

end Sys2Proof.Machine
end

