-- ==== Sys2Proof/Machine/CrcUnit.lean ====
section
/-! DEFINITION. The CRC-8 Validator's computation (40_crc.md), as the source words it: bit-serial, with the working
registers `crc`, `poly` and `adder`. -/

namespace Sys2Proof.Machine

/-- `CRC_STEP` (R92): `poly` and `adder` are assigned afresh for the bit (R91), the top bit of `crc` is tested before the
shift, the shift and the addition are 8 bits wide. -/
def crcStep (u : CrcUnit) (bit : Bool) : CrcUnit :=
  let poly0 : Byte := if bit then 0x1C#8 else 0x00#8
  let poly : Byte := if u.crc.msb then poly0 ^^^ 0x1D#8 else poly0
  let add : Byte := if bit then 1#8 else 0#8
  ⟨((u.crc <<< 1) + add) ^^^ poly, poly, bit⟩

/-- The bits of a byte, most significant first (R93). -/
def bitsOf (b : Byte) : List Bool :=
  [b.getLsbD 7, b.getLsbD 6, b.getLsbD 5, b.getLsbD 4, b.getLsbD 3, b.getLsbD 2, b.getLsbD 1, b.getLsbD 0]

/-- The registers before the first bit: `crc = 0xFF` (R90); the other two are assigned at every bit. -/
def crcStart : CrcUnit := ⟨0xFF#8, 0#8, false⟩

/-- The registers after the 24 steps over the first three bytes, byte 0 first (R93). -/
def crcRun (b0 b1 b2 : Byte) : CrcUnit := (bitsOf b0 ++ bitsOf b1 ++ bitsOf b2).foldl crcStep crcStart

/-- `CRC_COMPUTE` (R93): the complement of the final register. -/
def crcCompute (b0 b1 b2 : Byte) : Byte := ~~~(crcRun b0 b1 b2).crc

/-- The registers after the computation over a frame. -/
def crcOfFrame (f : Frame) : CrcUnit := crcRun f.b0 f.b1 f.b2

end Sys2Proof.Machine
end

