-- ==== Sys2Proof/Machine/Flags.lean ====
section
/-! DEFINITION. The Boolean results of R22 and the diagnostic scan: `crc_ok`, `isValid`, `id_ok`, the success conditions of
the queries and `ErrorScan`. -/

namespace Sys2Proof.Machine

/-- `CRC_CHECK` (R94), the value of `crc_ok`. -/
def crcCheck (f : Frame) : Bool := crcCompute f.b0 f.b1 f.b2 == f.b3

/-- The status codes that count as valid: startup and normal (R70, R104). -/
def statusValid (rs : BitVec 2) : Bool := rs == rsStartup || rs == rsNormal

/-- `ISVALID` (R104). -/
def isValid (f : Frame) : Bool := crcCheck f && statusValid (rsField (wordOf f))

/-- The Response Frame decoded from four received bytes (R20, R102, R104, R130). -/
def respOf (f : Frame) : Resp :=
  ⟨rsField (wordOf f), dataField (wordOf f), crcField (wordOf f), isValid f⟩

/-- `WHOAMI_ID` (R138). -/
def whoamiId : Half := 0x0051#16

/-- The identity check on the eighth response (R138); with `requiresValid` the alternative of U7. -/
def identityOk (requiresValid : Bool) (r : Resp) : Bool :=
  r.data == whoamiId && (!requiresValid || r.isValid)

/-- The success condition of READ_TEMP on its third response, in the source's two clauses (R144, R145). -/
def tempSuccess (r : Resp) : Bool := r.isValid && r.rs != rsError

/-- The success condition of READ_ACC (R147). -/
def accSuccess (r : Resp) : Bool := r.isValid

/-- The success condition of READ_STATUS (R151); with `requiresCrc` the alternative of U8. -/
def statusSuccess (requiresCrc : Bool) (r : Resp) : Bool :=
  if requiresCrc then r.isValid else r.rs != rsError

/-- The positions `ErrorScan` looks at, in its order: bit 1 upward to bit 15 (R152). -/
def scanPositions : List Nat := [1, 2, 3, 4, 5, 6, 7, 8, 9, 10, 11, 12, 13, 14, 15]

/-- `ErrorScan` (R152): the least set bit among bits 15:1. -/
def errorScan (data : Half) : Diag :=
  match scanPositions.find? (fun k => data.getLsbD k) with
  | some k => .bit (BitVec.ofNat 4 k)
  | none => .noBit

/-- What READ_STATUS writes to `diag`: the scan when the status is the error code, else valid bit 0 (R150). -/
def statusDiag (r : Resp) : Diag := if r.rs == rsError then errorScan r.data else .noBit

/-- The Error Table entry of a diagnostic: entry `p` for a position up to 9, none above and none without a position
(R26, R152). Diagnostic only: nothing else of the model reads it. -/
def diagEntry : Diag → Option Config.ErrorEntry
  | .bit p => if h : p.toNat < 10 then some (Config.errorTable ⟨p.toNat, h⟩) else none
  | .noBit | .unspecified => none

/-- The Status Table's text for a return status (R27). Diagnostic only. -/
def statusText (rs : BitVec 2) : String := Config.statusTable rs

/-- The outcome code of a success indicator (R77). -/
def codeOf (success : Bool) : OutcomeCode := if success then .ok else .fail

end Sys2Proof.Machine
end

