-- ==== Sys2Proof/Machine/Ops.lean ====
section
/-! DEFINITION. The shared operations over State: the sequencer's lists (R16, R81), the transport calls and `Request` (R40,
R130), the transport fault and the return from it by reset (R190, R210), refusal and admission (R132, R186), and the
delivery of a result (R21). -/

namespace Sys2Proof.Machine

/-! ## The sequencer's lists -/

/-- The requests a host operation expands to, in order (R81, R135, R144, R147, R150). -/
def expansion : SeqOp → List Cmd
  | .init =>
    [.writeMode3, .readMode, .readStatus, .readStatus, .readStatus, .readStatus, .readWhoami, .readWhoami, .readTemp]
  | .readTemp => [.readTemp, .readTemp, .readTemp]
  | .readAcc a => [axisCmd a]
  | .readStatus => [.readStatus]
  | .wire w => (Cmd.ofWord? w).toList

/-- The steps before the first request: INIT opens, configures and waits first (R134). -/
def stepsBefore : SeqOp → Nat
  | .init => 3
  | .readTemp | .readAcc _ | .readStatus | .wire _ => 0

/-- The number of steps of an operation: 12, 3, 1, 1 (R16). -/
def stepCount (op : SeqOp) : Nat := stepsBefore op + (expansion op).length

/-- The command the sequencer issues at the step it stands at, if that step is a request. -/
def Seq.cmd? : Seq → Option Cmd
  | .idle => none
  | .busy op k => if k < stepsBefore op then none else (expansion op)[k - stepsBefore op]?

/-- The request word the sequencer holds for its next step; for the model's own `wire w` that is `w`, whether or not
it is a command word. -/
def Seq.fetchWord : Seq → Option Word
  | .idle => none
  | .busy (.wire w) 0 => some w
  | .busy op k => (Seq.cmd? (.busy op k)).map Cmd.word

/-- The step at which the core issues a command: that of its operation whose rule examines the response where there is
one (R160 to R171). A command no operation emits stands on its own (log 13). -/
def issuingStep : Cmd → Seq
  | .readAccX => .busy (.readAcc .x) 0
  | .readAccY => .busy (.readAcc .y) 0
  | .readAccZ => .busy (.readAcc .z) 0
  | .readTemp => .busy .readTemp 2
  | .readStatus => .busy .readStatus 0
  | .writeMode3 => .busy .init 3
  | .readMode => .busy .init 4
  | .readWhoami => .busy .init 10
  | .writeMode1 => .busy (.wire (Cmd.word .writeMode1)) 0
  | .writeMode2 => .busy (.wire (Cmd.word .writeMode2)) 0
  | .writeMode4 => .busy (.wire (Cmd.word .writeMode4)) 0
  | .swReset => .busy (.wire (Cmd.word .swReset)) 0

/-! ## Results, refusal, fault, reset -/

/-- Append an event to the trace (R23). -/
def State.log (e : Event) (s : State) : State := { s with trace := s.trace ++ [e] }

/-- The end of an operation that delivers a result: outcome and value; `diag` is written by READ_STATUS alone (R21), and keeps its
value on FAIL too, where R79 leaves it unspecified (DEDUCED, log 6). `tx_word`, `rx_word` and `resp` keep what the last request
left, where R17 leaves them unspecified (DESIGN CHOICE, log 29). -/
def State.finish (o : OutcomeCode) (v : Option Value) (s : State) : State :=
  { s with seq := .idle, result := { s.result with outcome := o, value := v } }

/-- `Refuse` (R186): outcome REFUSED, the value and `diag` become unspecified, nothing else changes. -/
def State.refuse (s : State) : State := { s with result := ⟨.refused, none, .unspecified⟩ }

/-- What a transport fault leaves in `diag`: nothing specified when READ_STATUS is the operation, else what was there
(R21, R79, log 6). -/
def faultDiag (q : Seq) (d : Diag) : Diag :=
  match q with
  | .busy .readStatus _ => .unspecified
  | .idle | .busy .init _ | .busy .readTemp _ | .busy (.readAcc _) _ | .busy (.wire _) _ => d

/-- Entering the fault state (R190): FAULTED, outcome FAULT, the rest of the operation is not executed. The request and response
registers keep their values (R17, log 29). -/
def State.transportFault (s : State) : State :=
  { s with cstate := .faulted, seq := .idle, result := ⟨.fault, none, faultDiag s.seq s.result.diag⟩ }

/-- Reset, the one way out of the fault state (R192, R210). It touches neither the transport nor what the host
presents next. -/
def State.resetCore (s : State) : State := { State.reset with port := s.port, transport := s.transport }

/-! ## Requests -/

/-- `settle(w)`, the delay inside a request (R226). The one after CMD_SW_RESET is undefined: a free value (log 14). -/
def settle : Cmd → Nat
  | .writeMode1 | .writeMode2 | .writeMode3 | .writeMode4 => Config.modeMs
  | .readAccX | .readAccY | .readAccZ | .readTemp | .readStatus | .readMode | .readWhoami => Config.xferMs
  | .swReset => Config.swResetSettleMs

/-- The beginning of a request, before its transfer returns: `tx_word` holds the word (R130); with the mode-set command
the controller records Mode3 and its divisor (R136, R168). That this happens before the transfer returns is log 18. -/
def State.present (c : Cmd) (s : State) : State :=
  match c with
  | .writeMode3 => { s with txWord := c.word, mode := initMode, sens := sensOf initMode }
  | .readAccX | .readAccY | .readAccZ | .readTemp | .readStatus | .readMode | .writeMode1 | .writeMode2 | .writeMode4
  | .readWhoami | .swReset => { s with txWord := c.word }

/-- The rest of a request whose transfer returned `rx` (R130): the event, the settle delay, `rx_word`, `resp`; the check
inside ISVALID leaves the CRC unit's registers and `crc_ok` (R18, R22, log 15). -/
def State.receive (c : Cmd) (rx : Frame) (s : State) : State :=
  { s with
    rxWord := wordOf rx
    crcUnit := crcOfFrame rx
    resp := respOf rx
    flags := { s.flags with crcOk := crcCheck rx }
    trace := s.trace ++ [.xfer s.handle (frameOf c.word) (some rx), .delay (settle c)] }

/-- What a step looks at in the response it received: INIT's eighth request alone does so before its operation ends
(R137, R138). -/
def State.examine (op : SeqOp) (k : Nat) (s : State) : State :=
  match op with
  | .init =>
    if k = 10 then { s with flags := { s.flags with idOk := identityOk Config.idRequiresValid s.resp } } else s
  | .readTemp | .readAcc _ | .readStatus | .wire _ => s

/-- The success flag and the result of a query (R144, R147). -/
def State.deliver (success : Bool) (v : Value) (s : State) : State :=
  { s with flags := { s.flags with success := success } }.finish (codeOf success) (if success then some v else none)

/-- The end of an operation after its last request (R139, R144, R147, R150). -/
def State.complete (op : SeqOp) (s : State) : State :=
  match op with
  | .init => { s with cstate := .operational }.finish (codeOf s.flags.idOk) none
  | .readTemp => s.deliver (tempSuccess s.resp) (tempValue s.resp.data)
  | .readAcc _ => s.deliver (accSuccess s.resp) (accValue s.resp.data s.sens)
  | .readStatus =>
    { s with
      flags := { s.flags with success := statusSuccess Config.statusRequiresCrc s.resp }
      result := { s.result with diag := statusDiag s.resp } }.finish
      (codeOf (statusSuccess Config.statusRequiresCrc s.resp)) none
  | .wire _ => { s with seq := .idle }

/-- The step's use of the response, and the advance of the sequencer by one (R16). -/
def State.respond (s : State) : State :=
  match s.seq with
  | .idle => s
  | .busy op k =>
    if k + 1 = stepCount op then (s.examine op k).complete op else { s.examine op k with seq := .busy op (k + 1) }

/-- One wire command: `Request(w)` (R130, R172), and what the step that issues it does with the response. A transfer
that has not returned leaves the request waiting; one that fails is the transport fault, with no delay (R190). A
command executed where the sequencer does not stand at a step that issues it is the request alone (R172, log 13). -/
def State.issue (c : Cmd) (s : State) : State :=
  match s.transport.xfers with
  | [] => s.present c
  | answer :: rest =>
    let s1 := { s.present c with transport := { s.transport with xfers := rest } }
    match xferResult answer with
    | none => (s1.log (.xfer s1.handle (frameOf c.word) none)).transportFault
    | some rx => if s.seq.cmd? = some c then (s1.receive c rx).respond else s1.receive c rx

/-! ## INIT's own steps -/

/-- INIT step 0: `open` (R41, R134). Its event enters the trace when it returns (DESIGN CHOICE, log 30). -/
def State.openStep (s : State) : State :=
  match s.transport.opens with
  | [] => s
  | answer :: rest =>
    let s1 := { s with transport := { s.transport with opens := rest } }.log (.opened Config.devicePath answer)
    match answer with
    | none => s1.transportFault
    | some h => { s1 with handle := some h, cstate := .initializing, seq := .busy .init 1 }

/-- INIT step 1: `configure` (R42, R134). Its event enters the trace when it returns (DESIGN CHOICE, log 30). -/
def State.configureStep (s : State) : State :=
  match s.transport.configures with
  | [] => s
  | ok :: rest =>
    let s1 := { s with transport := { s.transport with configures := rest } }.log
      (.configured s.handle Config.spiMode Config.spiMaxHz Config.spiWordBits ok)
    if ok then { s1 with seq := .busy .init 2 } else s1.transportFault

/-- INIT step 2: the power-up delay (R134, R226). -/
def State.delayStep (s : State) : State := { s.log (.delay Config.powerupMs) with seq := .busy .init 3 }

/-! ## Running an operation -/

/-- Whether the sequencer stands at one of INIT's three steps before the requests. -/
def Seq.internal : Seq → Bool
  | .busy .init k => k < 3
  | .idle | .busy .readTemp _ | .busy (.readAcc _) _ | .busy .readStatus _ | .busy (.wire _) _ => false

/-- INIT's step `k` before the requests. -/
def State.internalStep (s : State) : State :=
  match s.seq with
  | .busy .init 0 => s.openStep
  | .busy .init 1 => s.configureStep
  | .busy .init 2 => s.delayStep
  | .idle | .busy _ _ => s

/-- One step of the operation in progress (R16); nothing when idle or when the call has not returned. -/
def State.seqStep (s : State) : State :=
  match s.seq.cmd? with
  | some c => s.issue c
  | none => s.internalStep

/-- `n` steps of the operation in progress. -/
def State.runSeq : Nat → State → State
  | 0, s => s
  | n + 1, s => State.runSeq n s.seqStep

/-- Accept an operation and run it, to its end or to a call that has not returned (R50, R133, log 1). -/
def State.perform (op : SeqOp) (s : State) : State := State.runSeq (stepCount op) { s with seq := .busy op 0 }

/-! ## Admission -/

/-- One host operation at a time (R133); two in flight are undefined (R224, U3). -/
def whenIdle (s : State) (f : State → State) : Host.Outcome State Fault Refusal :=
  if s.seq = .idle then .next (f s) else .refused .operationInFlight

/-- Admission of a stateful operation (R132): refused outside the one state it is defined in. -/
def guarded (need : CState) (s : State) (f : State → State) : Host.Outcome State Fault Refusal :=
  whenIdle s (fun s => if s.cstate = need then f s else s.refuse)

end Sys2Proof.Machine
end

