-- ==== Sys2Proof/Machine/Codec.lean ====
section
/-! DEFINITION. The Frame Codec's operations on the host port (41_codec.md). They are total and write only `result`
(R75, R106). -/

namespace Sys2Proof.Machine

/-- `ENCODE` (R100): the four bytes of a request word. -/
def execEncode (a : Word) (s : State) : Host.Outcome State Fault Refusal :=
  whenIdle s (State.finish .ok (some (.bytes (frameOf a))))

/-- `ASSEMBLE` (R101): the word of the four bytes in the operand, byte 0 in bits 31:24. -/
def execAssemble (a : Word) (s : State) : Host.Outcome State Fault Refusal :=
  whenIdle s (State.finish .ok (some (.word (wordOf (frameOf a)))))

/-- `DECODE` (R102): the status, payload and trailer of the four bytes in the operand; the CRC is not checked. -/
def execDecode (a : Word) (s : State) : Host.Outcome State Fault Refusal :=
  whenIdle s fun s =>
    let w := wordOf (frameOf a)
    s.finish .ok (some (.fields (rsField w) (dataField w) (crcField w)))

end Sys2Proof.Machine
end

