-- ==== Sys2Proof/Machine/Controller.lean ====
section
/-! DEFINITION. The Device Controller's host operations (43_controller.md). Each is admitted in one state (R132); the
bus-using ones run their list of steps through the sequencer. -/

namespace Sys2Proof.Machine

/-- `INIT` (R134 to R139). -/
def execInit (s : State) : Host.Outcome State Fault Refusal := guarded .uninit s (State.perform .init)

/-- `CHANGE_MODE` (R140 to R143): bookkeeping only, nothing is sent. An unrecognized selector applies Mode1 and its
divisor and reports FAIL. -/
def execChangeMode (sel : Word) (s : State) : Host.Outcome State Fault Refusal :=
  guarded .operational s fun s =>
    match modeOf? sel with
    | some m =>
      { s with mode := m, sens := sensOf m, flags := { s.flags with success := true } }.finish .ok none
    | none =>
      { s with mode := fallbackMode, sens := sensOf fallbackMode, flags := { s.flags with success := false } }.finish
        .fail none

/-- `READ_TEMP` (R144 to R146). -/
def execReadTemp (s : State) : Host.Outcome State Fault Refusal := guarded .operational s (State.perform .readTemp)

/-- `READ_ACC` (R147 to R149): an invalid axis fails outright, before any transfer. -/
def execReadAcc (axis : Word) (s : State) : Host.Outcome State Fault Refusal :=
  guarded .operational s fun s =>
    match axisOf? axis with
    | some a => s.perform (.readAcc a)
    | none => { s with flags := { s.flags with success := false } }.finish .fail none

/-- `READ_STATUS` (R150 to R152). -/
def execReadStatus (s : State) : Host.Outcome State Fault Refusal := guarded .operational s (State.perform .readStatus)

end Sys2Proof.Machine
end

