-- ==== Sys2Proof/Machine/Convert.lean ====
section
/-! DEFINITION. The Unit Converter's operations on the host port (42_convert.md). They write only `result` (R75). -/

namespace Sys2Proof.Machine

/-- `SENS` (R110): the divisor of a mode; for an unrecognized selector that of Mode1, with FAIL. -/
def execSens (sel : Word) (s : State) : Host.Outcome State Fault Refusal :=
  whenIdle s (State.finish (codeOf (sensLookup sel).2) (some (.divisor (sensLookup sel).1)))

/-- `CONV_ACCEL` (R111, R118): raw over divisor; a zero divisor is refused (R113). -/
def execConvAccel (a b : Word) (s : State) : Host.Outcome State Fault Refusal :=
  whenIdle s fun s => if b = 0#32 then s.refuse else s.finish .ok (some (accValue (rawOperand a) b))

/-- `CONV_TEMP` (R114, R119). -/
def execConvTemp (a : Word) (s : State) : Host.Outcome State Fault Refusal :=
  whenIdle s (State.finish .ok (some (tempValue (rawOperand a))))

end Sys2Proof.Machine
end

