-- ==== Sys2Proof/Machine/Crc.lean ====
section
/-! DEFINITION. The CRC-8 Validator's operations on the host port (40_crc.md). They run in every controller state and
write only `result` and the CRC unit's own registers and flag (R75, log 15). -/

namespace Sys2Proof.Machine

/-- `CRC_COMPUTE` (R93): the checksum of the bytes in bits 31:8. -/
def execCrcCompute (a : Word) (s : State) : Host.Outcome State Fault Refusal :=
  whenIdle s fun s =>
    let f := frameOf a
    { s with crcUnit := crcOfFrame f }.finish .ok (some (.checksum (crcCompute f.b0 f.b1 f.b2)))

/-- `CRC_CHECK` (R94): OK when the frame checks, FAIL when it does not. -/
def execCrcCheck (a : Word) (s : State) : Host.Outcome State Fault Refusal :=
  whenIdle s fun s =>
    let f := frameOf a
    { s with crcUnit := crcOfFrame f, flags := { s.flags with crcOk := crcCheck f } }.finish (codeOf (crcCheck f)) none

end Sys2Proof.Machine
end

