-- ==== Sys2Proof/Machine/Reserved.lean ====
section
/-! DEFINITION. The reserved op codes 0x0, 0x6 and 0x7 of the host port (R74): outcome REFUSED in every state. -/

namespace Sys2Proof.Machine

/-- `RESERVED_0` (R74, R186). -/
def execReserved0 (s : State) : Host.Outcome State Fault Refusal := whenIdle s State.refuse

/-- `RESERVED_6` (R74, R186). -/
def execReserved6 (s : State) : Host.Outcome State Fault Refusal := whenIdle s State.refuse

/-- `RESERVED_7` (R74, R186). -/
def execReserved7 (s : State) : Host.Outcome State Fault Refusal := whenIdle s State.refuse

end Sys2Proof.Machine
end

