-- ==== Sys2Proof/Machine/Wire.lean ====
section
/-! DEFINITION. The wire commands (44_wire_commands.md): each is `Request` of its word (R172) and what the step of the
operation in progress that issues it does with the response. -/

namespace Sys2Proof.Machine

/-- `CMD_READ_ACC_X` (R160): at READ_ACC's step with axis X the response is the operation's value. -/
def execCmdReadAccX (s : State) : Host.Outcome State Fault Refusal := .next (s.issue .readAccX)

/-- `CMD_READ_ACC_Y` (R161): at READ_ACC's step with axis Y the response is the operation's value. -/
def execCmdReadAccY (s : State) : Host.Outcome State Fault Refusal := .next (s.issue .readAccY)

/-- `CMD_READ_ACC_Z` (R162): at READ_ACC's step with axis Z the response is the operation's value. -/
def execCmdReadAccZ (s : State) : Host.Outcome State Fault Refusal := .next (s.issue .readAccZ)

/-- `CMD_READ_TEMP` (R163): only READ_TEMP's third request examines the response. -/
def execCmdReadTemp (s : State) : Host.Outcome State Fault Refusal := .next (s.issue .readTemp)

/-- `CMD_READ_STATUS` (R164): only READ_STATUS examines the response. -/
def execCmdReadStatus (s : State) : Host.Outcome State Fault Refusal := .next (s.issue .readStatus)

/-- `CMD_READ_MODE` (R165): INIT's second request, response not examined. -/
def execCmdReadMode (s : State) : Host.Outcome State Fault Refusal := .next (s.issue .readMode)

/-- `CMD_WRITE_MODE1` (R166): emitted by no operation; on its own it is the request of R172. -/
def execCmdWriteMode1 (s : State) : Host.Outcome State Fault Refusal := .next (s.issue .writeMode1)

/-- `CMD_WRITE_MODE2` (R167): emitted by no operation; on its own it is the request of R172. -/
def execCmdWriteMode2 (s : State) : Host.Outcome State Fault Refusal := .next (s.issue .writeMode2)

/-- `CMD_WRITE_MODE3` (R168): INIT's first request, with which Mode3 and 5400 are recorded. -/
def execCmdWriteMode3 (s : State) : Host.Outcome State Fault Refusal := .next (s.issue .writeMode3)

/-- `CMD_WRITE_MODE4` (R169): emitted by no operation; on its own it is the request of R172. -/
def execCmdWriteMode4 (s : State) : Host.Outcome State Fault Refusal := .next (s.issue .writeMode4)

/-- `CMD_READ_WHOAMI` (R170): INIT's seventh and eighth requests, of which the eighth is examined. -/
def execCmdReadWhoami (s : State) : Host.Outcome State Fault Refusal := .next (s.issue .readWhoami)

/-- `CMD_SW_RESET` (R171): emitted by no operation; on its own it is the request of R172, with a free settle delay. -/
def execCmdSwReset (s : State) : Host.Outcome State Fault Refusal := .next (s.issue .swReset)

end Sys2Proof.Machine
end

