-- ==== Sys2Proof/Machine/Dispatch.lean ====
section
/-! DEFINITION. One arm for each instruction, each a direct call of its meaning. -/

namespace Sys2Proof.Machine

def exec (i : Instr) (s : State) : Host.Outcome State Fault Refusal :=
  match i with
  | .init => Sys2Proof.Machine.execInit s
  | .changeMode sel => Sys2Proof.Machine.execChangeMode sel s
  | .readTemp => Sys2Proof.Machine.execReadTemp s
  | .readAcc axis => Sys2Proof.Machine.execReadAcc axis s
  | .readStatus => Sys2Proof.Machine.execReadStatus s
  | .crcCompute a => Sys2Proof.Machine.execCrcCompute a s
  | .crcCheck a => Sys2Proof.Machine.execCrcCheck a s
  | .encodeFrame a => Sys2Proof.Machine.execEncode a s
  | .assembleFrame a => Sys2Proof.Machine.execAssemble a s
  | .decodeFrame a => Sys2Proof.Machine.execDecode a s
  | .convAccel a b => Sys2Proof.Machine.execConvAccel a b s
  | .convTemp a => Sys2Proof.Machine.execConvTemp a s
  | .sens sel => Sys2Proof.Machine.execSens sel s
  | .reserved0 => Sys2Proof.Machine.execReserved0 s
  | .reserved6 => Sys2Proof.Machine.execReserved6 s
  | .reserved7 => Sys2Proof.Machine.execReserved7 s
  | .cmdReadAccX => Sys2Proof.Machine.execCmdReadAccX s
  | .cmdReadAccY => Sys2Proof.Machine.execCmdReadAccY s
  | .cmdReadAccZ => Sys2Proof.Machine.execCmdReadAccZ s
  | .cmdReadTemp => Sys2Proof.Machine.execCmdReadTemp s
  | .cmdReadStatus => Sys2Proof.Machine.execCmdReadStatus s
  | .cmdReadMode => Sys2Proof.Machine.execCmdReadMode s
  | .cmdWriteMode1 => Sys2Proof.Machine.execCmdWriteMode1 s
  | .cmdWriteMode2 => Sys2Proof.Machine.execCmdWriteMode2 s
  | .cmdWriteMode3 => Sys2Proof.Machine.execCmdWriteMode3 s
  | .cmdWriteMode4 => Sys2Proof.Machine.execCmdWriteMode4 s
  | .cmdReadWhoami => Sys2Proof.Machine.execCmdReadWhoami s
  | .cmdSwReset => Sys2Proof.Machine.execCmdSwReset s

end Sys2Proof.Machine
end

