-- ==== Sys2Proof/Machine/Fetch.lean ====
section
/-! DEFINITION. Where the next instruction comes from: the sequencer when an operation is in progress (R16), the host port
when the core is idle (R75), with reset before both (R211). -/

namespace Sys2Proof.Machine

/-- Run the instruction a decoder gave, or refuse the word it could not decode. -/
def runDecoded (r : Except DecodeError Instr) (s : State) : Host.Outcome State Fault Refusal :=
  match r with
  | .ok i => exec i s
  | .error (.noSuchCommand w) => .refused (.noSuchCommand w)

/-- The next step of the operation in progress: the wire command its sequencer holds, or one of INIT's own steps. -/
def resumeStep (s : State) : Host.Outcome State Fault Refusal :=
  match s.seq.fetchWord with
  | some w => runDecoded (decodeWire w) s
  | none => if s.seq.internal then .next s.internalStep else .fault .sequencerOffEnd

/-- Accept the operation the host presents next; with nothing presented the core waits (R210). -/
def acceptStep (s : State) : Host.Outcome State Fault Refusal :=
  match s.port with
  | .op h :: rest => runDecoded (decode (.host h)) { s with port := rest }
  | [] | .reset :: _ => .next s

/-- Reset if it is presented (R211), else the next step of the operation in progress, else the next operation. -/
def fetchAndRun (s : State) : Host.Outcome State Fault Refusal :=
  match s.port with
  | .reset :: rest => .next { s with port := rest }.resetCore
  | [] | .op _ :: _ => if s.seq = .idle then acceptStep s else resumeStep s

/-- The sequencer position from which the next step issues the word `w`. -/
def seqForWord (w : Word) : Seq :=
  match Cmd.ofWord? w with
  | some c => issuingStep c
  | none => .busy (.wire w) 0

/-- `s` with a code stored where the next step fetches: an operation presented at the port of an idle core, or a
command word at the step of the sequencer that issues it (log 3, log 13). -/
def placeCode (c : Code) (s : State) : State :=
  match c with
  | .host h => { s with seq := .idle, port := .op h :: s.port }
  | .wire w => { s with seq := seqForWord w, port := s.port.dropWhile (· == .reset) }

end Sys2Proof.Machine
end

