-- ==== Sys2Proof/Machine/Step.lean ====
section
/-! DEFINITION. One step of the machine: one host operation, or one step of an operation that had to wait (R232, log 1). -/

namespace Sys2Proof.Machine

/-- One step. -/
def step (s : State) : Host.Outcome State Fault Refusal := fetchAndRun s

/-- The state whose next step fetches and runs the instruction that the opcode table numbers `w`. -/
def State.withFetchWord (s : State) (nbits w : Nat) : State :=
  match codeOfTable nbits w with
  | some c => placeCode c s
  | none => s

end Sys2Proof.Machine
end

