-- ==== Sys2Proof/Safety.lean ====
section
/-! DEFINITION. What a good run of the core is, in the terms the claims use: a step that answers a next state, a coherent
controller (R15, R16, R62, R131), a bus discipline that the trace shows (R23, R72, R190, R203, R233), and the words for
frames. -/

namespace Sys2Proof.Machine

/-- The step answers a next state: neither a fault nor a refusal of the model. -/
def Continues (s : State) : Prop := ∃ t, step s = .next t

/-! ## The controller -/

/-- The sequencer positions that go with a controller state (R16, R131): INITIALIZING exists only while INIT executes,
INIT's first step is executed in UNINIT, queries in OPERATIONAL. -/
def Seq.legal (c : CState) : Seq → Prop
  | .idle => c ≠ .initializing
  | .busy .init 0 => c = .uninit
  | .busy .init (k + 1) => k + 1 < 12 ∧ c = .initializing
  | .busy .readTemp k => k < 3 ∧ c = .operational
  | .busy (.readAcc _) k => k = 0 ∧ c = .operational
  | .busy .readStatus k => k = 0 ∧ c = .operational
  | .busy (.wire _) _ => False

/-- The controller's registers fit together. -/
structure State.Coherent (s : State) : Prop where
  /-- R15 -/
  divisor : s.sens = sensOf s.mode
  /-- R16, R131 -/
  sequencer : s.seq.legal s.cstate
  /-- R12: the valid bit is set when `open` succeeds -/
  closed : s.cstate = .uninit → s.handle = none
  /-- R12, R134 -/
  opened : s.cstate = .initializing ∨ s.cstate = .operational → s.handle.isSome = true
  /-- R62: request bits 25:24 are 0 -/
  reservedZero : rsField s.txWord = 0#2

/-! ## The trace -/

/-- The frame an event sends. -/
def Event.sent? : Event → Option Frame
  | .xfer _ tx _ => some tx
  | .opened _ _ | .configured _ _ _ _ _ | .delay _ => none

/-- What a transfer event returned. -/
def Event.received? : Event → Option (Option Frame)
  | .xfer _ _ rx => some rx
  | .opened _ _ | .configured _ _ _ _ _ | .delay _ => none

/-- The handle an event passes to the transport. -/
def Event.passed? : Event → Option (Option Handle)
  | .xfer h _ _ | .configured h _ _ _ _ => some h
  | .opened _ _ | .delay _ => none

/-- The event is a failed transport call (R180 class (a)). -/
def Event.failed : Event → Bool
  | .opened _ none => true
  | .configured _ _ _ _ false => true
  | .xfer _ _ none => true
  | .opened _ (some _) | .configured _ _ _ _ true | .xfer _ _ (some _) | .delay _ => false

/-- The frames sent, oldest first. -/
def sentFrames (es : List Event) : List Frame := es.filterMap Event.sent?

/-- What the transfers returned, oldest first. -/
def receivedFrames (es : List Event) : List (Option Frame) := es.filterMap Event.received?

/-- The eight commands that operations emit (R72: the other four are emitted by none). -/
def emittedCmds : List Cmd :=
  [.readAccX, .readAccY, .readAccZ, .readTemp, .readStatus, .readMode, .writeMode3, .readWhoami]

/-- The mode-set frame `B4 00 02 25` (R168). -/
def modeSetFrame : Frame := ⟨0xB4#8, 0x00#8, 0x02#8, 0x25#8⟩

/-- INIT has not sent its first request yet. -/
def State.beforeModeSet (s : State) : Prop :=
  s.cstate = .uninit ∨ ∃ k, s.seq = .busy .init k ∧ k ≤ 3

/-- INIT's first request has been answered. -/
def State.afterModeSet (s : State) : Prop :=
  s.cstate = .operational ∨ ∃ k, s.seq = .busy .init k ∧ 3 < k

/-- The discipline of the calls made since reset. -/
structure State.Disciplined (s : State) : Prop where
  /-- R72: only words of the eight emitted commands are sent -/
  onlyEmitted : ∀ f ∈ sentFrames s.trace, ∃ c ∈ emittedCmds, f = frameOf c.word
  /-- R233: the mode-set frame is the first frame sent, and is sent once -/
  modeSetFirst : sentFrames s.trace = [] ∨
    ∃ rest, sentFrames s.trace = modeSetFrame :: rest ∧ modeSetFrame ∉ rest
  /-- nothing is sent before INIT's first request -/
  nothingBefore : s.beforeModeSet → sentFrames s.trace = []
  /-- something is sent once INIT's first request is answered -/
  somethingAfter : s.afterModeSet → sentFrames s.trace ≠ []
  /-- nothing is called in UNINIT -/
  untouched : s.cstate = .uninit → s.trace = []
  /-- R190, R203: a failed call is the last call, and leaves FAULTED -/
  failedIsLast : ∀ before e after, s.trace = before ++ e :: after → e.failed = true →
    after = [] ∧ s.cstate = .faulted
  /-- R7, R12: every call passes the handle the controller owns -/
  ownHandle : ∀ e ∈ s.trace, ∀ h, e.passed? = some h → h = s.handle

/-! ## Words for frames of instructions -/

/-- The controller's registers are the same (R11 to R14). -/
def sameController (s t : State) : Prop :=
  t.cstate = s.cstate ∧ t.handle = s.handle ∧ t.mode = s.mode ∧ t.sens = s.sens

/-- The transport was not called: trace and answers are the same. -/
def sameBus (s t : State) : Prop := t.trace = s.trace ∧ t.transport = s.transport

/-- The request and response registers are the same (R17, R20). -/
def sameRequest (s t : State) : Prop := t.txWord = s.txWord ∧ t.rxWord = s.rxWord ∧ t.resp = s.resp

/-- The datapath registers as a request of the word `w` answered by `rx` leaves them (R17, R18, R20, R130). That they hold this after
the operation has ended is the model's choice (log 15, log 29). -/
def holdsRequest (w : Word) (rx : Frame) (t : State) : Prop :=
  t.txWord = w ∧ t.rxWord = wordOf rx ∧ t.resp = respOf rx ∧ t.crcUnit = crcOfFrame rx

/-- Reset is not presented next. -/
def noReset (s : State) : Prop := ∀ rest, s.port ≠ .reset :: rest

/-- A received frame as the answer of the transport that carries it (R43). -/
def answerOf (f : Frame) : Option (List Byte) := some [f.b0, f.b1, f.b2, f.b3]

/-- The two events of an answered request: the transfer and its settle delay (R130, R226). -/
def exchange (h : Option Handle) (w : Word) (ms : Nat) (rx : Frame) : List Event :=
  [.xfer h (frameOf w) (some rx), .delay ms]

/-- The events of answered requests, one for each frame received. -/
def exchanges (h : Option Handle) : List (Word × Nat) → List Frame → List Event
  | (w, ms) :: reqs, rx :: rxs => exchange h w ms rx ++ exchanges h reqs rxs
  | [], _ | _ :: _, [] => []

/-- The power-up sequence as the table of R135 lists it, each word with the delay R226 gives it. -/
def powerUpRequests : List (Word × Nat) :=
  [(0xB4000225#32, 5), (0x340000DF#32, 1), (0x180000E5#32, 1), (0x180000E5#32, 1), (0x180000E5#32, 1),
   (0x180000E5#32, 1), (0x40000091#32, 1), (0x40000091#32, 1), (0x140000EF#32, 1)]

/-- The events of INIT before its first request (R134, R227). -/
def powerUpEvents (h : Handle) : List Event :=
  [.opened Config.devicePath (some h),
   .configured (some h) Config.spiMode Config.spiMaxHz Config.spiWordBits true, .delay 10]

/-- The word READ_ACC sends for each axis (R147, R160 to R162). -/
def axisWord : Axis → Word
  | .x => 0x040000F7#32
  | .y => 0x080000FD#32
  | .z => 0x0C0000FB#32

/-- Append answers to the transfers the transport has ready. -/
def State.supply (more : List (Option (List Byte))) (s : State) : State :=
  { s with transport := { s.transport with xfers := s.transport.xfers ++ more } }

/-- The checksum of bits 31:8 of a word in the polynomial form of R95: each bit from 31 down to 8 shifts the register
and XORs 0x1D when it differs from the top bit; the complement of the final register is the checksum. -/
def polynomialCrc (w : Word) : Byte :=
  ~~~((List.range 24).foldl
    (fun (r : Byte) (i : Nat) => (r <<< 1) ^^^ (if r.msb != w.getLsbD (31 - i) then 0x1D#8 else 0#8)) 0xFF#8)

end Sys2Proof.Machine
end

