-- ==== Sys2Proof/Certificates/Slice0/Obligations.lean ====
section
/-! DEFINITION. The statements for the provers. Every statement about an instruction says what `exec` answers, under
hypotheses on the state and the operands alone. Words and numbers of the spec's tables are written out here and not taken
from the model's own tables. The choices a docstring calls the spec's decisions (D<n>) or the model's (log <n>) are no rules
of the source. -/

open Sys2Proof Sys2Proof.Machine

/-! ## Encoding -/

/-- Words written out from the encodings of R66 and R75 decode to the instructions they stand for, and a word outside the
table decodes to none. The op codes are decision D14, the command words defaults of D8 (log 8). -/
def Obligations.SpecWordsDecodeToTheirInstructions : Prop :=
  decodeTableWord 8 0b0001 = some .init ∧ decodeTableWord 8 0b0011 = some .readTemp ∧
  decodeTableWord 8 0b0110 = some .reserved6 ∧ decodeTableWord 8 0b1111 = some (.sens 0#32) ∧
  decodeTableWord 32 0b00000100000000000000000011110111 = some .cmdReadAccX ∧
  decodeTableWord 32 0b10110100000000000000001000100101 = some .cmdWriteMode3 ∧
  decodeTableWord 32 0b01000000000000000000000010010001 = some .cmdReadWhoami ∧
  decodeTableWord 32 0x12345678 = none ∧
  decode (.host ⟨0xD#4, 0xABCD1594#32, 5400#32⟩) = .ok (.convAccel 0x1594#32 5400#32) ∧
  decode (.host ⟨0x8#4, 0x140000AB#32, 7#32⟩) = .ok (.crcCompute 0x14000000#32)

/-- Decoder and encoder agree on every instruction: decoding the code of a well-formed instruction gives it back, with
every operand; every code decodes to a well-formed instruction if to any; a request word is the code of the instruction it
decodes to (R60, R66, R75). -/
def Obligations.DecodeInvertsEncode : Prop :=
  (∀ i : Instr, i.wf = true → decode (encode i) = .ok i) ∧
  (∀ (c : Code) (i : Instr), decode c = .ok i → i.wf = true) ∧
  (∀ (w : Word) (i : Instr), decode (.wire w) = .ok i → encode i = .wire w) ∧
  (∀ h : HostWord, ∃ i, decode (.host h) = .ok i)

/-- Every `CMD` word carries its own checksum and has bits 25:24 zero, and no two commands share a word (R62, R66, R67,
which are the spec's decisions D7, D8 and a derivation). -/
def Obligations.CommandWordsAreValidRequests : Prop :=
  (∀ c : Cmd, crcCheck (frameOf c.word) = true ∧ c.word.extractLsb' 24 2 = 0#2) ∧
  (∀ c d : Cmd, c.word = d.word → c = d)

/-- ENCODE then ASSEMBLE, and ASSEMBLE then ENCODE, lose nothing (R82, R103, derived there from R100 and R101). -/
def Obligations.FramesRoundTrip : Prop :=
  (∀ w : Word, wordOf (frameOf w) = w) ∧ (∀ f : Frame, frameOf (wordOf f) = f)

/-! ## The step -/

/-- When the core is idle and the host presents an operation, the step is that operation's `exec` with the presentation
taken from the port (R75, R133; the port as a list is log 2). -/
def Obligations.StepRunsThePresentedOperation : Prop :=
  ∀ (s : State) (h : HostWord) (rest : List PortInput) (i : Instr),
    s.seq = .idle → s.port = .op h :: rest → decode (.host h) = .ok i →
    i.wf = true ∧ step s = exec i { s with port := rest }

/-- When an operation is in progress and its sequencer holds a request word, the step is the `exec` of that word's command,
unless reset is presented (R16, R211; log 1). -/
def Obligations.StepRunsTheSequencersCommand : Prop :=
  ∀ (s : State) (w : Word) (i : Instr),
    noReset s → s.seq.fetchWord = some w → decode (.wire w) = .ok i → step s = exec i s

/-- INIT's steps before its first request, taken one by one when INIT had to wait: `open`, `configure` and the power-up
delay, each failing call entering FAULTED (R134, R190, decisions D20 and D21). One step at a time is log 1, the number 10 in the
delay log 21, the diagnostic kept on FAULT log 6. -/
def Obligations.StepRunsInitsOwnSteps : Prop :=
  (∀ (s : State) (h : Handle) (rest : List (Option Handle)),
    noReset s → s.seq = .busy .init 0 → s.transport.opens = some h :: rest →
    step s = .next { s with
      handle := some h, cstate := .initializing, seq := .busy .init 1
      trace := s.trace ++ [.opened Config.devicePath (some h)]
      transport := { s.transport with opens := rest } }) ∧
  (∀ (s : State) (rest : List (Option Handle)),
    noReset s → s.seq = .busy .init 0 → s.transport.opens = none :: rest →
    step s = .next { s with
      cstate := .faulted, seq := .idle, result := ⟨.fault, none, s.result.diag⟩
      trace := s.trace ++ [.opened Config.devicePath none]
      transport := { s.transport with opens := rest } }) ∧
  (∀ (s : State) (rest : List Bool),
    noReset s → s.seq = .busy .init 1 → s.transport.configures = true :: rest →
    step s = .next { s with
      seq := .busy .init 2
      trace := s.trace ++ [.configured s.handle Config.spiMode Config.spiMaxHz Config.spiWordBits true]
      transport := { s.transport with configures := rest } }) ∧
  (∀ (s : State) (rest : List Bool),
    noReset s → s.seq = .busy .init 1 → s.transport.configures = false :: rest →
    step s = .next { s with
      cstate := .faulted, seq := .idle, result := ⟨.fault, none, s.result.diag⟩
      trace := s.trace ++ [.configured s.handle Config.spiMode Config.spiMaxHz Config.spiWordBits false]
      transport := { s.transport with configures := rest } }) ∧
  (∀ (s : State), noReset s → s.seq = .busy .init 2 →
    step s = .next { s with seq := .busy .init 3, trace := s.trace ++ [.delay 10] })

/-- Reset has priority over whatever is in progress and gives `State.reset` with the inputs that are still to come; an idle
core with nothing presented waits (R210, R211, decisions D27 and D35). `State.reset` gives values also to the registers R31 leaves
unspecified (log 4, log 5); that the pending inputs are kept is log 19; that the core waits at an empty port is log 2. -/
def Obligations.ResetHasPriorityAndIdleWaits : Prop :=
  (∀ (s : State) (rest : List PortInput), s.port = .reset :: rest →
    step s = .next { State.reset with port := rest, transport := s.transport }) ∧
  (∀ s : State, s.seq = .idle → s.port = [] → step s = .next s)

/-- What reset leaves: the values R31 and R210 state (decision D27). -/
def Obligations.ResetLeavesTheStatedValues : Prop :=
  State.reset.cstate = .uninit ∧ State.reset.handle = none ∧ State.reset.mode = .mode3 ∧ State.reset.sens = 5400#32 ∧
  State.reset.seq = .idle ∧ State.reset.result.outcome = .none ∧ State.reset.trace = []

/-! ## The CRC-8 Validator -/

/-- CRC_COMPUTE delivers, in every controller state, the checksum of operand bits 31:8 in the polynomial form that R95 derives
from the bit step of R92, and writes besides only the CRC unit's working registers (decisions D1 to D3, log 15). -/
def Obligations.CrcComputeDeliversThePolynomialChecksum : Prop :=
  ∀ (s : State) (a : Word), s.seq = .idle →
    ∃ u : CrcUnit, exec (.crcCompute a) s = .next { s with
      crcUnit := u, result := { s.result with outcome := .ok, value := some (.checksum (polynomialCrc a)) } }

/-- CRC_CHECK ends OK exactly when bits 7:0 of the frame word are the checksum of bits 31:8, else FAIL; `crc_ok` is the
answer (R94, R95). That the diagnostic stays as it was, on FAIL too where R79 leaves it unspecified, is log 6 (from R21); the CRC
unit's registers are log 15. -/
def Obligations.CrcCheckComparesTheFourthByte : Prop :=
  ∀ (s : State) (a : Word), s.seq = .idle →
    ∃ (u : CrcUnit) (good : Bool), (good = true ↔ polynomialCrc a = a.extractLsb' 0 8) ∧
      exec (.crcCheck a) s = .next { s with
        crcUnit := u, flags := { s.flags with crcOk := good }
        result := { s.result with outcome := if good then .ok else .fail, value := none } }

/-- The three reference frames pass `ISVALID`, and CRC_CHECK of each ends OK in every idle state (R97). -/
def Obligations.ReferenceFramesAreValid : Prop :=
  ∀ w ∈ [0x040000F7#32, 0x140000EF#32, 0x40000091#32], isValid (frameOf w) = true ∧
    ∀ s : State, s.seq = .idle → ∃ t, exec (.crcCheck w) s = .next t ∧ t.result.outcome = .ok

/-- The checksum is affine over GF(2), with constant 0xF1 (R96 (1), derived there). -/
def Obligations.ChecksumIsAffine : Prop :=
  crcCompute 0#8 0#8 0#8 = 0xF1#8 ∧
  ∀ a b c x y z : Byte,
    crcCompute (a ^^^ x) (b ^^^ y) (c ^^^ z) = crcCompute a b c ^^^ crcCompute x y z ^^^ 0xF1#8

/-- Every single-bit error of a good frame is detected, and every double-bit error within its first three bytes (R96 (2)
and (3), derived there). For given first bytes exactly one fourth byte passes (R94). -/
def Obligations.ChecksumDetectsSingleAndDoubleBitErrors : Prop :=
  (∀ (w : Word) (i : Nat), crcCheck (frameOf w) = true → i < 32 → crcCheck (frameOf (w ^^^ (1#32 <<< i))) = false) ∧
  (∀ (w : Word) (i j : Nat), crcCheck (frameOf w) = true → 8 ≤ i → i < j → j < 32 →
    crcCheck (frameOf (w ^^^ (1#32 <<< i) ^^^ (1#32 <<< j))) = false) ∧
  (∀ b0 b1 b2 : Byte, ∃! b3 : Byte, crcCheck ⟨b0, b1, b2, b3⟩ = true)

/-! ## The Frame Codec -/

/-- ENCODE delivers the word's four bytes, bits 31:24 first, in every controller state, and changes nothing else (R100). -/
def Obligations.EncodeDeliversBytesMostSignificantFirst : Prop :=
  ∀ (s : State) (w : Word), s.seq = .idle →
    exec (.encodeFrame w) s = .next { s with result := { s.result with
      outcome := .ok
      value := some (.bytes ⟨w.extractLsb' 24 8, w.extractLsb' 16 8, w.extractLsb' 8 8, w.extractLsb' 0 8⟩) } }

/-- ASSEMBLE delivers the word whose bits 31:24 are the first byte and bits 7:0 the last, for all four bytes presented in
the operand in that order, and changes nothing else (R101). -/
def Obligations.AssembleJoinsBytesMostSignificantFirst : Prop :=
  ∀ (s : State) (b0 b1 b2 b3 : Byte), s.seq = .idle →
    ∃ w : Word, exec (.assembleFrame (b0 ++ b1 ++ b2 ++ b3)) s = .next { s with
      result := { s.result with outcome := .ok, value := some (.word w) } } ∧
    w.toNat = b0.toNat * 2 ^ 24 + b1.toNat * 2 ^ 16 + b2.toNat * 2 ^ 8 + b3.toNat

/-- DECODE delivers bits 25:24, bits 23:8 and bits 7:0 of the word assembled from the operand's bytes, whatever the
checksum, and changes nothing else (R102). -/
def Obligations.DecodeExtractsStatusDataAndTrailer : Prop :=
  ∀ (s : State) (w : Word), s.seq = .idle →
    exec (.decodeFrame w) s = .next { s with result := { s.result with
      outcome := .ok
      value := some (.fields (w.extractLsb' 24 2) (w.extractLsb' 8 16) (w.extractLsb' 0 8)) } }

/-- A request leaves `resp.isValid` true exactly when the received frame's checksum matches and its status is startup or
normal, that is, when bit 1 of the status is 0: for each of the twelve commands, whatever the sequencer does with the
response (R104). The status codes are decision D5 (log 9); that `resp` keeps its value when the request ends the operation is
log 29. -/
def Obligations.ResponseIsValidOnGoodCrcAndStatus : Prop :=
  ∀ (s : State) (c : Cmd) (rx : Frame) (more : List (Option (List Byte))),
    s.transport.xfers = answerOf rx :: more →
    ∃ t, exec c.instr s = .next t ∧
      (t.resp.isValid = true ↔ crcCompute rx.b0 rx.b1 rx.b2 = rx.b3 ∧ (t.resp.rs = 0#2 ∨ t.resp.rs = 1#2)) ∧
      (t.resp.rs = 0#2 ∨ t.resp.rs = 1#2 ↔ rx.b0.getLsbD 1 = false)

/-! ## The Unit Converter -/

/-- SENS delivers 2700, 1350, 5400, 5400 for modes 1 to 4 with OK, and 2700 with FAIL for every other selector, and changes
nothing else (R110; the selectors are decision D16). That the diagnostic stays as it was, on FAIL too where R79 leaves it
unspecified, is log 6 (from R21). -/
def Obligations.SensDeliversTheDivisorTable : Prop :=
  ∀ s : State, s.seq = .idle →
    (∀ p ∈ [(1#32, 2700#32), (2#32, 1350#32), (3#32, 5400#32), (4#32, 5400#32)],
      exec (.sens p.1) s = .next { s with result := { s.result with outcome := .ok, value := some (.divisor p.2) } }) ∧
    (∀ sel : Word, sel.toNat = 0 ∨ 4 < sel.toNat →
      exec (.sens sel) s = .next { s with
        result := { s.result with outcome := .fail, value := some (.divisor 2700#32) } })

/-- CONV_ACCEL delivers the exact quotient of the unsigned raw value (operand bits 15:0) by the signed divisor; a zero divisor
is refused (R111, whose refusal is decision D24). Nothing but the result changes. -/
def Obligations.ConvAccelDividesExactly : Prop :=
  ∀ (s : State) (a b : Word), s.seq = .idle →
    (b ≠ 0#32 → ∃ (q : Rat) (image : Word),
      q * (b.toInt : Rat) = ((a.extractLsb' 0 16).toNat : Rat) ∧
      exec (.convAccel a b) s = .next { s with
        result := { s.result with outcome := .ok, value := some (.acc q image) } }) ∧
    (b = 0#32 → exec (.convAccel a b) s = .next { s with result := ⟨.refused, none, .unspecified⟩ })

/-- CONV_TEMP delivers `rhaz((1000 * raw - 5162535) / 189)`, which is `rhaz(100 * (-273.15 + raw / 18.9))`, for the raw value
in operand bits 15:0, and changes nothing but the result (R114). -/
def Obligations.ConvTempRoundsTheExactTemperature : Prop :=
  ∀ (s : State) (a : Word), s.seq = .idle →
    ∃ (c : Int) (image : Word),
      c = rhaz ((1000 * ((a.extractLsb' 0 16).toNat : Rat) - 5162535) / 189) ∧
      c = rhaz (100 * (-27315 / 100 + ((a.extractLsb' 0 16).toNat : Rat) / (189 / 10))) ∧
      exec (.convTemp a) s = .next { s with
        result := { s.result with outcome := .ok, value := some (.temp c image) } }

/-- `rhaz` gives the nearest integer, a tie going to the one farther from zero, and is `sign(q) * floor(|q| + 1/2)` (R115). -/
def Obligations.RhazRoundsHalfAwayFromZero : Prop :=
  ∀ q : Rat,
    (∀ n : Int, |q - (rhaz q : Rat)| ≤ |q - (n : Rat)|) ∧
    (∀ n : Int, |q - (n : Rat)| = |q - (rhaz q : Rat)| → |(n : Rat)| ≤ |(rhaz q : Rat)|) ∧
    rhaz q = (SignType.sign q : Int) * (|q| + 1 / 2).floor

/-- Facts about CONV_TEMP (R116, derived there): no input is a tie, consecutive raw values differ by 5 or 6 hundredths, and
the results span -27315 to 319431. -/
def Obligations.TemperatureIsMonotoneWithoutTies : Prop :=
  (∀ (raw : Half) (n : Int), 2 * (1000 * (raw.toNat : Int) - 5162535) ≠ (2 * n + 1) * 189) ∧
  (∀ r r' : Half, r'.toNat = r.toNat + 1 →
    convTemp r' - convTemp r = 5 ∨ convTemp r' - convTemp r = 6) ∧
  convTemp 0#16 = -27315 ∧ convTemp 0xFFFF#16 = 319431 ∧
  (∀ r : Half, -27315 ≤ convTemp r ∧ convTemp r ≤ 319431)

/-- `rne32` gives a binary32 value nearest to the number: no other finite pattern is nearer, and where another value is as near
the last fraction bit is 0, for every number of the normal range, from the least normal value to the greatest finite one,
`2 ^ 128 - 2 ^ 104`; zero gives the pattern 0 (R120, decision D22; that `f32` is IEEE 754 binary32 is the spec's general
knowledge, log 22). -/
def Obligations.Binary32ImageIsNearest : Prop :=
  rne32 0 = 0#32 ∧
  ∀ (q : Rat) (b : Word), (1 : Rat) / 2 ^ 126 ≤ |q| → |q| ≤ 2 ^ 128 - 2 ^ 104 → b.extractLsb' 23 8 ≠ 0xFF#8 →
    |f32Value (rne32 q) - q| ≤ |f32Value b - q| ∧
    (|f32Value b - q| = |f32Value (rne32 q) - q| → f32Value b = f32Value (rne32 q) ∨ (rne32 q).getLsbD 0 = false)

/-- The values the converter delivers carry their binary32 images: `acc_f32 = rne32(acc_q)` and
`temp_f32 = rne32(temp_c100 / 100)` (R118, R119, decisions D22 and D23). -/
def Obligations.ConvertedValuesCarryTheirImages : Prop :=
  ∀ (s : State) (a b : Word), s.seq = .idle →
    (b ≠ 0#32 → ∃ t q, exec (.convAccel a b) s = .next t ∧ t.result.value = some (.acc q (rne32 q))) ∧
    (∃ t c, exec (.convTemp a) s = .next t ∧ t.result.value = some (.temp c (rne32 ((c : Rat) / 100))))

/-- The eight unit operations depend on their operands alone: in any two idle states they end with the same outcome and value,
whatever the controller state (FAULTED too), and they touch neither the controller, the transport nor the request registers
(R8, R75, R193; the port is decision D14). That the request registers hold what the last request left is log 29. -/
def Obligations.UnitOperationsDependOnOperandsAlone : Prop :=
  ∀ (s s' : State) (i : Instr),
    ((∃ a, i = .crcCompute a) ∨ (∃ a, i = .crcCheck a) ∨ (∃ a, i = .encodeFrame a) ∨ (∃ a, i = .assembleFrame a) ∨
      (∃ a, i = .decodeFrame a) ∨ (∃ a b, i = .convAccel a b) ∨ (∃ a, i = .convTemp a) ∨ (∃ a, i = .sens a)) →
    s.seq = .idle → s'.seq = .idle →
    ∃ t t', exec i s = .next t ∧ exec i s' = .next t' ∧
      t.result.outcome = t'.result.outcome ∧ t.result.value = t'.result.value ∧
      sameController s t ∧ sameBus s t ∧ sameRequest s t ∧ t.seq = .idle ∧ t.port = s.port ∧
      t.flags.success = s.flags.success ∧ t.flags.idOk = s.flags.idOk

/-! ## Refusal by the spec -/

/-- The reserved op codes end REFUSED in every state and change nothing else; the value and the diagnostic become unspecified
(R74, R186, decisions D14 and D17; log 5, log 6). -/
def Obligations.ReservedCodesAreRefused : Prop :=
  ∀ (s : State) (i : Instr), i = .reserved0 ∨ i = .reserved6 ∨ i = .reserved7 → s.seq = .idle →
    exec i s = .next { s with result := ⟨.refused, none, .unspecified⟩ }

/-- A stateful operation outside the one state it is defined in ends REFUSED and changes nothing else, whatever its operand
(R132, R186, R195, decisions D17 and D30). The value and the diagnostic become unspecified (log 5, log 6). -/
def Obligations.StatefulOperationsAreRefusedOutsideTheirState : Prop :=
  ∀ s : State, s.seq = .idle →
    (s.cstate ≠ .uninit → exec .init s = .next { s with result := ⟨.refused, none, .unspecified⟩ }) ∧
    (s.cstate ≠ .operational → ∀ (i : Instr) (a : Word),
      i = .changeMode a ∨ i = .readTemp ∨ i = .readAcc a ∨ i = .readStatus →
      exec i s = .next { s with result := ⟨.refused, none, .unspecified⟩ })

/-- In FAULTED every stateful operation is refused and nothing is sent; reset leads back to UNINIT (R132, R153, decision
D17). -/
def Obligations.FaultedControllerRefusesAndSendsNothing : Prop :=
  ∀ (s : State) (i : Instr) (a : Word), s.seq = .idle → s.cstate = .faulted →
    i = .init ∨ i = .changeMode a ∨ i = .readTemp ∨ i = .readAcc a ∨ i = .readStatus →
    (∃ t, exec i s = .next t ∧ t.result.outcome = .refused ∧ sameController s t ∧ sameBus s t) ∧
    (∀ rest, s.port = .reset :: rest → ∃ t, step s = .next t ∧ t.cstate = .uninit)

/-- A host operation executed while another is in progress has no meaning (R133, R224: "undefined"): the model refuses it by
name. -/
def Obligations.SecondOperationInFlightHasNoMeaning : Prop :=
  ∀ (s : State) (i : Instr) (h : HostWord), s.seq ≠ .idle → decode (.host h) = .ok i →
    exec i s = .refused .operationInFlight

/-! ## The Device Controller -/

/-- INIT with every call answered: `open`, `configure`, the power-up delay and the nine requests of R135 in order, each
followed by its settle delay; it ends OPERATIONAL in Mode3 with divisor 5400, and OK exactly when the eighth response carries
0x0051. Rests on the default of ID_REQUIRES_VALID (D11, log 10), the command words (D8, log 8), the placement of the delays and
their numbers (D21, log 21), the kept diagnostic (log 6), the CRC unit's registers and flags (log 15) and the request and response
registers after the end, which R17 leaves unspecified (log 29). -/
def Obligations.InitRunsThePowerUpSequence : Prop :=
  ∀ (s : State) (h : Handle) (opens : List (Option Handle)) (confs : List Bool) (rxs : List Frame)
    (more : List (Option (List Byte))),
    s.seq = .idle → s.cstate = .uninit → rxs.length = 9 →
    s.transport = ⟨some h :: opens, true :: confs, rxs.map answerOf ++ more⟩ →
    ∃ t r8 r9, rxs[7]? = some r8 ∧ rxs[8]? = some r9 ∧ exec .init s = .next t ∧
      t.cstate = .operational ∧ t.handle = some h ∧ t.mode = .mode3 ∧ t.sens = 5400#32 ∧ t.seq = .idle ∧
      t.result = { s.result with
        outcome := if r8.b1 ++ r8.b2 = 0x0051#16 then .ok else .fail, value := none } ∧
      t.flags = { s.flags with crcOk := crcCheck r9, idOk := decide (r8.b1 ++ r8.b2 = 0x0051#16) } ∧
      holdsRequest 0x140000EF#32 r9 t ∧
      t.trace = s.trace ++ powerUpEvents h ++ exchanges (some h) powerUpRequests rxs ∧
      t.port = s.port ∧ t.transport = ⟨opens, confs, more⟩

/-- INIT stops at the first call that fails: `open`, `configure`, or the k-th of its nine transfers, after which nothing more
is sent and no delay is requested; it ends FAULTED with outcome FAULT, keeping the effects of the steps before (R134, R190,
R195, decisions D19, D20, D30). The words are D8 (log 8), the numbers in the delays D21 (log 21), the kept diagnostic log 6, the
request register after the end log 29. -/
def Obligations.InitStopsAtTheFirstFailedCall : Prop :=
  (∀ (s : State) (opens : List (Option Handle)),
    s.seq = .idle → s.cstate = .uninit → s.transport.opens = none :: opens →
    exec .init s = .next { s with
      cstate := .faulted, result := ⟨.fault, none, s.result.diag⟩
      trace := s.trace ++ [.opened Config.devicePath none], transport := { s.transport with opens := opens } }) ∧
  (∀ (s : State) (h : Handle) (opens : List (Option Handle)) (confs : List Bool),
    s.seq = .idle → s.cstate = .uninit → s.transport.opens = some h :: opens →
    s.transport.configures = false :: confs →
    exec .init s = .next { s with
      cstate := .faulted, handle := some h, result := ⟨.fault, none, s.result.diag⟩
      trace := s.trace ++ [.opened Config.devicePath (some h),
        .configured (some h) Config.spiMode Config.spiMaxHz Config.spiWordBits false]
      transport := { s.transport with opens := opens, configures := confs } }) ∧
  (∀ (s : State) (h : Handle) (opens : List (Option Handle)) (confs : List Bool) (rxs : List Frame)
    (bad : Option (List Byte)) (more : List (Option (List Byte))),
    s.seq = .idle → s.cstate = .uninit → rxs.length < 9 → xferResult bad = none →
    s.transport = ⟨some h :: opens, true :: confs, rxs.map answerOf ++ bad :: more⟩ →
    ∃ t w ms, powerUpRequests[rxs.length]? = some (w, ms) ∧ exec .init s = .next t ∧
      t.cstate = .faulted ∧ t.handle = some h ∧ t.mode = .mode3 ∧ t.sens = 5400#32 ∧ t.seq = .idle ∧
      t.result = ⟨.fault, none, s.result.diag⟩ ∧ t.txWord = w ∧ t.flags.success = s.flags.success ∧
      t.trace = s.trace ++ powerUpEvents h ++ exchanges (some h) powerUpRequests rxs ++
        [.xfer (some h) (frameOf w) none] ∧
      t.port = s.port ∧ t.transport = ⟨opens, confs, more⟩)

/-- CHANGE_MODE with selector 1 to 4 records the mode and its divisor, ends OK and changes nothing else but `success`
(R141). -/
def Obligations.ChangeModeRecordsARecognizedMode : Prop :=
  ∀ s : State, s.seq = .idle → s.cstate = .operational →
    ∀ p ∈ [(1#32, Mode.mode1, 2700#32), (2#32, Mode.mode2, 1350#32), (3#32, Mode.mode3, 5400#32),
      (4#32, Mode.mode4, 5400#32)],
    exec (.changeMode p.1) s = .next { s with
      mode := p.2.1, sens := p.2.2, flags := { s.flags with success := true }
      result := { s.result with outcome := .ok, value := none } }

/-- CHANGE_MODE with any other selector records Mode1 and 2700, whatever the mode was, and ends FAIL (R142; the selectors are
decision D16); it sends nothing (R143, decision D33). That the diagnostic stays as it was, where R79 leaves it unspecified on
FAIL, is log 6 (from R21). -/
def Obligations.ChangeModeFallsBackToMode1 : Prop :=
  ∀ (s : State) (sel : Word), s.seq = .idle → s.cstate = .operational → sel.toNat = 0 ∨ 4 < sel.toNat →
    exec (.changeMode sel) s = .next { s with
      mode := .mode1, sens := 2700#32, flags := { s.flags with success := false }
      result := { s.result with outcome := .fail, value := none } }

/-- READ_TEMP with its three transfers answered: three read-temperature requests; OK with the third response's temperature when
that response is valid, else FAIL with no value; the first two responses do not matter (decision D34), and the controller does not
change (R144, R145, R146). The temperature is the integer within half of `(1000 * raw - 5162535) / 189`. The word is D8 (log 8),
the 1 ms in the delays D21 (log 21), the kept diagnostic log 6, the CRC unit's registers and the flags log 15, the request and
response registers after the end, which R17 leaves unspecified, log 29. -/
def Obligations.ReadTempReportsTheThirdResponse : Prop :=
  ∀ (s : State) (r1 r2 r3 : Frame) (more : List (Option (List Byte))),
    s.seq = .idle → s.cstate = .operational →
    s.transport.xfers = [answerOf r1, answerOf r2, answerOf r3] ++ more →
    ∃ t, exec .readTemp s = .next t ∧ sameController s t ∧ t.seq = .idle ∧
      (isValid r3 = true → t.result.outcome = .ok ∧ ∃ c : Int,
        t.result.value = some (.temp c (rne32 ((c : Rat) / 100))) ∧
        2 * |1000 * ((r3.b1 ++ r3.b2 : Half).toNat : Int) - 5162535 - 189 * c| ≤ 189) ∧
      (isValid r3 = false → t.result.outcome = .fail ∧ t.result.value = none) ∧
      t.result.diag = s.result.diag ∧
      t.flags = { s.flags with crcOk := crcCheck r3, success := isValid r3 } ∧
      holdsRequest 0x140000EF#32 r3 t ∧
      t.trace = s.trace ++ exchanges s.handle [(0x140000EF#32, 1), (0x140000EF#32, 1), (0x140000EF#32, 1)] [r1, r2, r3] ∧
      t.port = s.port ∧ t.transport = { s.transport with xfers := more }

/-- READ_ACC with a valid axis and its one transfer answered: one request of the axis's word; OK with the unsigned raw value over
the controller's own divisor when the response is valid, else FAIL with no value (R112, R147, R148). The premise on the divisor
is the invariant of R15. The axis selectors are D15, the words D8 (log 8), the 1 ms in the delay D21 (log 21), the kept diagnostic
log 6, the CRC unit's registers and the flags log 15, the request and response registers after the end, which R17 leaves
unspecified, log 29. -/
def Obligations.ReadAccScalesTheResponse : Prop :=
  ∀ (s : State) (sel : Word) (a : Axis) (rx : Frame) (more : List (Option (List Byte))),
    s.seq = .idle → s.cstate = .operational → s.sens = sensOf s.mode →
    (sel, a) ∈ [(0#32, Axis.x), (1#32, Axis.y), (2#32, Axis.z)] →
    s.transport.xfers = answerOf rx :: more →
    ∃ t, exec (.readAcc sel) s = .next t ∧ sameController s t ∧ t.seq = .idle ∧
      (isValid rx = true → t.result.outcome = .ok ∧ ∃ q : Rat,
        t.result.value = some (.acc q (rne32 q)) ∧
        q * (s.sens.toInt : Rat) = ((rx.b1 ++ rx.b2 : Half).toNat : Rat)) ∧
      (isValid rx = false → t.result.outcome = .fail ∧ t.result.value = none) ∧
      t.result.diag = s.result.diag ∧
      t.flags = { s.flags with crcOk := crcCheck rx, success := isValid rx } ∧
      holdsRequest (axisWord a) rx t ∧
      t.trace = s.trace ++ exchange s.handle (axisWord a) 1 rx ∧
      t.port = s.port ∧ t.transport = { s.transport with xfers := more }

/-- READ_ACC with any other selector fails outright: outcome FAIL, no transfer, no delay, no controller change (R149; "rejected
outright" is decision D15). That the diagnostic stays as it was, where R79 leaves it unspecified on FAIL, is log 6 (from R21). -/
def Obligations.ReadAccRejectsAnInvalidAxis : Prop :=
  ∀ (s : State) (sel : Word), s.seq = .idle → s.cstate = .operational → 2 < sel.toNat →
    exec (.readAcc sel) s = .next { s with
      flags := { s.flags with success := false }, result := { s.result with outcome := .fail, value := none } }

/-- READ_STATUS with its one transfer answered: FAIL and the scan of the data when the status is the error code, whatever the
checksum; OK and no diagnostic otherwise (R150, R151; STATUS_REQUIRES_CRC at its default, decision D32, log 10; the error code is
decision D5, log 9). The word is D8 (log 8), the 1 ms in the delay D21 (log 21), the CRC unit's registers and the flags log 15, the
request and response registers after the end, which R17 leaves unspecified, log 29. -/
def Obligations.ReadStatusFailsOnTheErrorCodeOnly : Prop :=
  ∀ (s : State) (rx : Frame) (more : List (Option (List Byte))),
    s.seq = .idle → s.cstate = .operational → s.transport.xfers = answerOf rx :: more →
    ∃ t, exec .readStatus s = .next t ∧ sameController s t ∧ t.seq = .idle ∧ t.result.value = none ∧
      (rx.b0.extractLsb' 0 2 = 3#2 → t.result.outcome = .fail ∧ t.flags.success = false ∧
        t.result.diag = errorScan (rx.b1 ++ rx.b2)) ∧
      (rx.b0.extractLsb' 0 2 ≠ 3#2 → t.result.outcome = .ok ∧ t.flags.success = true ∧ t.result.diag = .noBit) ∧
      t.flags.crcOk = crcCheck rx ∧ t.flags.idOk = s.flags.idOk ∧
      holdsRequest 0x180000E5#32 rx t ∧
      t.trace = s.trace ++ exchange s.handle 0x180000E5#32 1 rx ∧
      t.port = s.port ∧ t.transport = { s.transport with xfers := more }

/-- The scan reports the least set bit among bits 1 to 15 of the data, and no bit when none of them is set; bit 0 is never looked
at. A position up to 9 selects that entry of the Error Table, a position above 9 and no position select none (R26, R152, decision
D25). -/
def Obligations.ErrorScanFindsTheLeastBitAboveZero : Prop :=
  (∀ data : Half,
    (errorScan data = .noBit ↔ ∀ k, 1 ≤ k → k ≤ 15 → data.getLsbD k = false) ∧
    (∀ p : BitVec 4, errorScan data = .bit p ↔
      1 ≤ p.toNat ∧ data.getLsbD p.toNat = true ∧ ∀ k, 1 ≤ k → k < p.toNat → data.getLsbD k = false) ∧
    errorScan data ≠ .unspecified) ∧
  (∀ (p : BitVec 4) (h : p.toNat < 10), diagEntry (.bit p) = some (Config.errorTable ⟨p.toNat, h⟩)) ∧
  (∀ p : BitVec 4, 10 ≤ p.toNat → diagEntry (.bit p) = none) ∧
  diagEntry .noBit = none ∧ diagEntry .unspecified = none

/-- A query whose k-th transfer fails ends at once: the k - 1 answered requests, then the failed one, with no delay after it and
nothing more sent; FAULTED with outcome FAULT and no value, mode, divisor and handle as they were (R144, R147, R150, R190,
decision D19). The words are D8 (log 8), the 1 ms in the delays D21 (log 21), the flags log 15, the request register after the
end, which R17 leaves unspecified, log 29. -/
def Obligations.QueriesStopAtTheFirstFailedTransfer : Prop :=
  ∀ (s : State) (i : Instr) (reqs : List (Word × Nat)) (rxs : List Frame) (bad : Option (List Byte))
    (more : List (Option (List Byte))),
    (i, reqs) ∈ [(Instr.readTemp, [(0x140000EF#32, 1), (0x140000EF#32, 1), (0x140000EF#32, 1)]),
      (Instr.readAcc 0#32, [(0x040000F7#32, 1)]), (Instr.readAcc 1#32, [(0x080000FD#32, 1)]),
      (Instr.readAcc 2#32, [(0x0C0000FB#32, 1)]), (Instr.readStatus, [(0x180000E5#32, 1)])] →
    s.seq = .idle → s.cstate = .operational → rxs.length < reqs.length → xferResult bad = none →
    s.transport.xfers = rxs.map answerOf ++ bad :: more →
    ∃ t w ms, reqs[rxs.length]? = some (w, ms) ∧ exec i s = .next t ∧
      t.cstate = .faulted ∧ t.handle = s.handle ∧ t.mode = s.mode ∧ t.sens = s.sens ∧ t.seq = .idle ∧
      t.result.outcome = .fault ∧ t.result.value = none ∧
      t.flags.success = s.flags.success ∧ t.flags.idOk = s.flags.idOk ∧ t.txWord = w ∧
      t.trace = s.trace ++ exchanges s.handle reqs rxs ++ [.xfer s.handle (frameOf w) none] ∧
      t.port = s.port ∧ t.transport = { s.transport with xfers := more }

/-- An answer is a received frame exactly when it has four bytes; every other answer is an error (R43, R46, decision D4). -/
def Obligations.OnlyFourByteAnswersAreFrames : Prop :=
  xferResult none = none ∧
  ∀ bytes : List Byte,
    (bytes.length ≠ 4 → xferResult (some bytes) = none) ∧
    (bytes.length = 4 → ∃ f, xferResult (some bytes) = some f ∧ bytes = [f.b0, f.b1, f.b2, f.b3])

/-- A call that has not returned is waited for (R230): INIT whose `open` or `configure` is still out, INIT with fewer than nine
transfers answered, and a query with fewer transfers answered than it has requests each stand at that call with no result
delivered, and further steps change nothing until the transport answers or reset comes (R133). That the operation stands in State
is log 1 and log 2; `tx_word`, `mode` and `sens` while the transfer is out are log 18; that a call enters the trace when it returns
is log 18 and log 30; the words are D8 (log 8), the numbers in the delays D21 (log 21). -/
def Obligations.OperationsWaitForACallThatHasNotReturned : Prop :=
  (∀ s : State, s.seq = .idle → s.cstate = .uninit → noReset s → s.transport.opens = [] →
    ∃ t, exec .init s = .next t ∧ t = { s with seq := .busy .init 0 } ∧ step t = .next t) ∧
  (∀ (s : State) (h : Handle) (opens : List (Option Handle)),
    s.seq = .idle → s.cstate = .uninit → noReset s → s.transport.opens = some h :: opens → s.transport.configures = [] →
    ∃ t, exec .init s = .next t ∧ step t = .next t ∧ t = { s with
      seq := .busy .init 1, cstate := .initializing, handle := some h
      trace := s.trace ++ [.opened Config.devicePath (some h)]
      transport := { s.transport with opens := opens } }) ∧
  (∀ (s : State) (h : Handle) (opens : List (Option Handle)) (confs : List Bool) (rxs : List Frame),
    s.seq = .idle → s.cstate = .uninit → rxs.length < 9 → noReset s →
    s.transport = ⟨some h :: opens, true :: confs, rxs.map answerOf⟩ →
    ∃ t w ms, powerUpRequests[rxs.length]? = some (w, ms) ∧ exec .init s = .next t ∧
      t.cstate = .initializing ∧ t.handle = some h ∧ t.seq = .busy .init (3 + rxs.length) ∧ t.result = s.result ∧
      t.txWord = w ∧ t.mode = .mode3 ∧ t.sens = 5400#32 ∧
      t.trace = s.trace ++ powerUpEvents h ++ exchanges (some h) powerUpRequests rxs ∧
      t.port = s.port ∧ t.transport = ⟨opens, confs, []⟩ ∧ step t = .next t) ∧
  (∀ (s : State) (i : Instr) (op : SeqOp) (reqs : List (Word × Nat)) (rxs : List Frame),
    (i, op, reqs) ∈ [(Instr.readTemp, SeqOp.readTemp, [(0x140000EF#32, 1), (0x140000EF#32, 1), (0x140000EF#32, 1)]),
      (Instr.readAcc 0#32, .readAcc .x, [(0x040000F7#32, 1)]), (Instr.readAcc 1#32, .readAcc .y, [(0x080000FD#32, 1)]),
      (Instr.readAcc 2#32, .readAcc .z, [(0x0C0000FB#32, 1)]), (Instr.readStatus, .readStatus, [(0x180000E5#32, 1)])] →
    s.seq = .idle → s.cstate = .operational → rxs.length < reqs.length → noReset s →
    s.transport.xfers = rxs.map answerOf →
    ∃ t w ms, reqs[rxs.length]? = some (w, ms) ∧ exec i s = .next t ∧
      sameController s t ∧ t.seq = .busy op rxs.length ∧ t.result = s.result ∧ t.txWord = w ∧
      t.flags.success = s.flags.success ∧ t.flags.idOk = s.flags.idOk ∧
      t.trace = s.trace ++ exchanges s.handle reqs rxs ∧
      t.port = s.port ∧ t.transport = { s.transport with xfers := [] } ∧ step t = .next t)

/-! ## Wire commands -/

/-- Each of the twelve wire commands, where the sequencer does not stand at a step that issues it, is one request: it writes the
request and response registers, the CRC unit's working registers and `crc_ok`, appends the transfer and a settle delay, and
changes nothing else, except that the mode-set word of Mode3 records Mode3 and 5400 (R168, R172, R226; log 13, log 26). The delay is
5 ms for the write-mode words and 1 ms for the reads (D21, log 21); after CMD_SW_RESET it is a free value (log 14). The words are D8
(log 8), the registers it leaves log 15 and log 29. -/
def Obligations.WireCommandIsOneRequest : Prop :=
  ∀ (s : State) (c : Cmd) (rx : Frame) (more : List (Option (List Byte))),
    s.seq.cmd? ≠ some c → s.transport.xfers = answerOf rx :: more →
    ∃ t ms, exec c.instr s = .next t ∧ encode c.instr = .wire c.word ∧
      (c ∈ [.writeMode1, .writeMode2, .writeMode3, .writeMode4] → ms = 5) ∧
      (c ∈ [.readAccX, .readAccY, .readAccZ, .readTemp, .readStatus, .readMode, .readWhoami] → ms = 1) ∧
      t = { s with
        txWord := c.word, rxWord := wordOf rx, resp := respOf rx, crcUnit := crcOfFrame rx
        flags := { s.flags with crcOk := crcCheck rx }
        mode := if c = .writeMode3 then .mode3 else s.mode
        sens := if c = .writeMode3 then 5400#32 else s.sens
        trace := s.trace ++ exchange s.handle c.word ms rx
        transport := { s.transport with xfers := more } }

/-- A wire command whose transfer fails enters FAULTED, wherever the sequencer stands: outcome FAULT, sequencer idle, the failed
transfer appended and no delay (R172, R190, decision D19). Issued outside an operation it is log 13; the words are D8 (log 8), the
registers after the end log 15 and log 29. -/
def Obligations.WireCommandFaultsOnAFailedTransfer : Prop :=
  ∀ (s : State) (c : Cmd) (bad : Option (List Byte)) (more : List (Option (List Byte))),
    s.transport.xfers = bad :: more → xferResult bad = none →
    ∃ t, exec c.instr s = .next t ∧ t.cstate = .faulted ∧ t.seq = .idle ∧ t.result.outcome = .fault ∧
      t.result.value = none ∧ t.txWord = c.word ∧ t.rxWord = s.rxWord ∧ t.resp = s.resp ∧ t.flags = s.flags ∧
      t.handle = s.handle ∧ t.trace = s.trace ++ [.xfer s.handle (frameOf c.word) none] ∧
      t.transport = { s.transport with xfers := more }

/-- At a step before the last one of INIT or READ_TEMP, the command issued there advances the sequencer by one and its response is
not examined, except that the second WHOAMI read (step 10 of INIT) decides `id_ok` by its data alone (decision D11, log 10; D34 for
READ_TEMP); the result port keeps its value (R16, R135, R137, R138, R163, R164, R165, R168, R170). The words are D8 (log 8), the
numbers in the delays D21 (log 21), the CRC unit's registers and the flags log 15. -/
def Obligations.EarlierCommandsAdvanceTheSequencer : Prop :=
  ∀ (s : State) (op : SeqOp) (k : Nat) (c : Cmd) (rx : Frame) (more : List (Option (List Byte))),
    s.seq = .busy op k → s.seq.cmd? = some c → k + 1 < stepCount op → s.transport.xfers = answerOf rx :: more →
    ∃ t, exec c.instr s = .next t ∧ t.seq = .busy op (k + 1) ∧ t.result = s.result ∧ t.cstate = s.cstate ∧
      t.handle = s.handle ∧ t.flags.success = s.flags.success ∧
      t.mode = (if c = .writeMode3 then .mode3 else s.mode) ∧
      t.sens = (if c = .writeMode3 then 5400#32 else s.sens) ∧
      t.flags.idOk =
        (if op = .init ∧ k = 10 then decide (rx.b1 ++ rx.b2 = 0x0051#16) else s.flags.idOk) ∧
      holdsRequest c.word rx t ∧
      t.trace = s.trace ++ exchange s.handle c.word (if c = .writeMode3 then 5 else 1) rx

/-- The command of an operation's last step ends the operation: the axis words and the third temperature read deliver a value or
FAIL, the status read delivers its outcome and diagnostic, and INIT's temperature read makes the controller OPERATIONAL with the
identity check as outcome (R139, R160 to R164; STATUS_REQUIRES_CRC at its default, D32, log 10; the error code D5, log 9; the scan
D25). -/
def Obligations.LastCommandsDeliverTheResult : Prop :=
  ∀ (s : State) (rx : Frame) (more : List (Option (List Byte))), s.transport.xfers = answerOf rx :: more →
    (∀ p ∈ [(Axis.x, Instr.cmdReadAccX), (Axis.y, Instr.cmdReadAccY), (Axis.z, Instr.cmdReadAccZ)],
      s.seq = .busy (.readAcc p.1) 0 →
      ∃ t, exec p.2 s = .next t ∧ t.seq = .idle ∧ t.cstate = s.cstate ∧ t.flags.success = isValid rx ∧
        t.result.outcome = (if isValid rx then .ok else .fail) ∧
        (isValid rx = true → ∃ q image, t.result.value = some (.acc q image) ∧
          q = ((rx.b1 ++ rx.b2 : Half).toNat : Rat) / (s.sens.toInt : Rat))) ∧
    (s.seq = .busy .readTemp 2 →
      ∃ t, exec .cmdReadTemp s = .next t ∧ t.seq = .idle ∧ t.cstate = s.cstate ∧ t.flags.success = isValid rx ∧
        t.result.outcome = (if isValid rx then .ok else .fail) ∧
        (isValid rx = true → ∃ c image, t.result.value = some (.temp c image) ∧
          c = rhaz ((1000 * ((rx.b1 ++ rx.b2 : Half).toNat : Rat) - 5162535) / 189))) ∧
    (s.seq = .busy .readStatus 0 →
      ∃ t, exec .cmdReadStatus s = .next t ∧ t.seq = .idle ∧ t.cstate = s.cstate ∧
        t.result.outcome = (if rx.b0.extractLsb' 0 2 = 3#2 then .fail else .ok) ∧
        t.result.diag = (if rx.b0.extractLsb' 0 2 = 3#2 then errorScan (rx.b1 ++ rx.b2) else .noBit)) ∧
    (s.seq = .busy .init 11 →
      ∃ t, exec .cmdReadTemp s = .next t ∧ t.seq = .idle ∧ t.cstate = .operational ∧
        t.result.outcome = (if s.flags.idOk then .ok else .fail) ∧ t.mode = s.mode ∧ t.sens = s.sens)

/-! ## The status outputs -/

/-- The status outputs show the controller's registers in the numbers of R11, R13 and R78: `cstate_out` 0 to 3, `mode_out` 1 to 4,
`sens_out` the divisor, which in a coherent state is the one of the mode shown; the outcomes have the codes of R77, and 5 to 7 are
never written. CHANGE_MODE 2 shows mode 2 and divisor 1350 (R78). The numbers are decisions D14, D16, D28 and D29. -/
def Obligations.StatusOutputsShowTheController : Prop :=
  (∀ s : State,
    (s.cstateOut = 0#2 ↔ s.cstate = .uninit) ∧ (s.cstateOut = 1#2 ↔ s.cstate = .initializing) ∧
    (s.cstateOut = 2#2 ↔ s.cstate = .operational) ∧ (s.cstateOut = 3#2 ↔ s.cstate = .faulted) ∧
    (s.modeOut = 1#3 ↔ s.mode = .mode1) ∧ (s.modeOut = 2#3 ↔ s.mode = .mode2) ∧
    (s.modeOut = 3#3 ↔ s.mode = .mode3) ∧ (s.modeOut = 4#3 ↔ s.mode = .mode4) ∧
    1 ≤ s.modeOut.toNat ∧ s.modeOut.toNat ≤ 4 ∧ s.sensOut = s.sens) ∧
  (∀ s : State, s.Coherent → (s.modeOut, s.sensOut) ∈
    [(1#3, 2700#32), (2#3, 1350#32), (3#3, 5400#32), (4#3, 5400#32)]) ∧
  (∀ o : OutcomeCode,
    (outcomeCode o = 0#3 ↔ o = .none) ∧ (outcomeCode o = 1#3 ↔ o = .ok) ∧ (outcomeCode o = 2#3 ↔ o = .fail) ∧
    (outcomeCode o = 3#3 ↔ o = .fault) ∧ (outcomeCode o = 4#3 ↔ o = .refused) ∧ (outcomeCode o).toNat ≤ 4) ∧
  (∀ s : State, s.seq = .idle → s.cstate = .operational →
    ∃ t, exec (.changeMode 2#32) s = .next t ∧ t.cstateOut = 2#2 ∧ t.modeOut = 2#3 ∧ t.sensOut = 1350#32)

/-! ## The whole machine -/

/-- After reset the controller is coherent (R15, R62, R131) and the call discipline holds (R210). The zero in the reserved bits
of `tx_word` is the model's reset value (log 4). -/
def Obligations.ResetMeetsBothInvariants : Prop := State.reset.Coherent ∧ State.reset.Disciplined

/-- Every step keeps the controller coherent: the divisor is the mode's, the sequencer stands where the controller state allows,
the handle is valid exactly when it must be, the request's reserved bits are 0 (R12, R13, R15, R16, R62, R131). -/
def Obligations.StepKeepsTheControllerCoherent : Prop :=
  ∀ s t : State, s.Coherent → step s = .next t → t.Coherent

/-- Every step keeps the call discipline: only the eight emitted words are sent, never CMD_SW_RESET or the write-mode words 1, 2
and 4; the mode-set frame is the first frame sent and is sent once between resets; a failed call is the last call and leaves
FAULTED; every call passes the controller's own handle (R7, R12, R72, R166, R167, R169, R171, R190, R203, R233; the words are D8,
log 8). -/
def Obligations.StepKeepsTheCallDiscipline : Prop :=
  ∀ s t : State, s.Coherent → s.Disciplined → step s = .next t → t.Disciplined

/-- A coherent machine never stops: every step answers a next state, whatever the host presents and the transport answers (R44:
"no answer leaves it without a step"). -/
def Obligations.CoherentMachineNeverStops : Prop := ∀ s : State, s.Coherent → Continues s

/-- FAULTED is left by reset only (R19), and in it no transport call is made and no controller register changes, because every
stateful operation is refused there (R132, R153, decision D17). -/
def Obligations.FaultedIsLeftOnlyByReset : Prop :=
  ∀ s t : State, s.Coherent → s.cstate = .faulted → step s = .next t →
    (noReset s → t.cstate = .faulted ∧ sameController s t ∧ sameBus s t) ∧
    (∀ rest, s.port = .reset :: rest → t.cstate = .uninit)

/-- The transitions of the controller state in one step without reset are those of the table of R131, INIT's taken together when
its calls are answered. -/
def Obligations.OnlyTheStatedTransitionsHappen : Prop :=
  ∀ s t : State, s.Coherent → noReset s → step s = .next t →
    t.cstate = s.cstate ∨
    (s.cstate = .uninit ∧ (t.cstate = .initializing ∨ t.cstate = .operational)) ∨
    (s.cstate = .initializing ∧ t.cstate = .operational) ∨
    (s.cstate ≠ .faulted ∧ t.cstate = .faulted ∧ ∃ e, t.trace.getLast? = some e ∧ e.failed = true)

/-- No transport failure is swallowed: if a step makes a call that fails, the operation's outcome is FAULT and the controller is
FAULTED afterwards (R203). -/
def Obligations.NoFailedCallIsSwallowed : Prop :=
  ∀ (s t : State) (es : List Event), s.Coherent → noReset s → step s = .next t → t.trace = s.trace ++ es →
    (∃ e ∈ es, e.failed = true) → t.result.outcome = .fault ∧ t.cstate = .faulted

/-- The mode changes only while INIT runs, or is accepted in UNINIT, and then to Mode3, or by CHANGE_MODE accepted in OPERATIONAL
(R13, R136, R140; the op codes are decision D14). -/
def Obligations.ModeIsWrittenOnlyByInitAndChangeMode : Prop :=
  ∀ s t : State, s.Coherent → noReset s → step s = .next t → t.mode ≠ s.mode →
    (t.mode = .mode3 ∧
      ((∃ k, s.seq = .busy .init k) ∨
        (s.seq = .idle ∧ s.cstate = .uninit ∧ ∃ h rest, s.port = .op h :: rest ∧ h.op = 0x1#4))) ∨
    (s.seq = .idle ∧ s.cstate = .operational ∧ ∃ h rest, s.port = .op h :: rest ∧ h.op = 0x2#4)

/-- Calls are appended to the trace in order and never dropped, and answers are consumed in order, one for each transfer; one step
makes at most nine transfers, and more than three only where INIT is accepted in UNINIT (R43, R49, R50, R52, R155, R233; that a
transfer enters the trace when it returns is log 18). -/
def Obligations.TransfersConsumeAnswersInOrder : Prop :=
  ∀ s t : State, s.Coherent → noReset s → step s = .next t →
    ∃ (es : List Event) (used : List (Option (List Byte))),
      t.trace = s.trace ++ es ∧ s.transport.xfers = used ++ t.transport.xfers ∧
      receivedFrames es = used.map xferResult ∧ used.length ≤ 9 ∧
      (3 < used.length →
        s.seq = .idle ∧ s.cstate = .uninit ∧ ∃ h rest, s.port = .op h :: rest ∧ h.op = 0x1#4)

/-- An operation that had to wait resumes where it stopped: running it on the answers there are, and going on when more arrive,
ends in the same state as running it with all of them from the start (R50, R230; log 1, log 18). -/
def Obligations.WaitingOperationResumes : Prop :=
  ∀ (s : State) (op : SeqOp) (k n : Nat) (more : List (Option (List Byte))),
    s.seq = .busy op k → stepCount op ≤ k + n →
    State.runSeq n ((State.runSeq n s).supply more) = State.runSeq n (s.supply more)

/-- Reset followed by INIT forgets the past: from any two states with the same inputs to come, resetting and then running INIT
gives the same state, and what INIT leaves is given by the inputs to come alone: Mode3 and 5400; while `open` has not returned,
UNINIT; when it fails, FAULTED; else its handle, with INITIALIZING, FAULTED or OPERATIONAL as `configure` and the nine transfers
are answered, and a trace that starts empty (R192, R212, with R134, R135, R139, R190). The registers R31 leaves unspecified are
the same because of log 4; that the inputs are kept is log 19, what stands while a call is out log 18 and log 30; the words are D8
(log 8), the numbers in the delays D21 (log 21), the identity check D11 (log 10). -/
def Obligations.ResetThenInitForgetsThePast : Prop :=
  ∀ (s s' : State) (h : HostWord) (rest : List PortInput), h.op = 0x1#4 →
    s.port = .reset :: .op h :: rest → s'.port = .reset :: .op h :: rest → s'.transport = s.transport →
    ∃ t u, step s = .next t ∧ step s' = .next t ∧ step t = .next u ∧ t.cstate = .uninit ∧ t.port = .op h :: rest ∧
      u.port = rest ∧ u.mode = .mode3 ∧ u.sens = 5400#32 ∧
      (s.transport.opens = [] → u.cstate = .uninit ∧ u.handle = none ∧ u.trace = [] ∧ u.seq = .busy .init 0) ∧
      (∀ opens, s.transport.opens = none :: opens →
        u.cstate = .faulted ∧ u.handle = none ∧ u.trace = [.opened Config.devicePath none]) ∧
      (∀ d opens, s.transport.opens = some d :: opens → u.handle = some d ∧
        (s.transport.configures = [] → u.cstate = .initializing ∧ u.trace = [.opened Config.devicePath (some d)]) ∧
        (∀ confs, s.transport.configures = false :: confs →
          u.cstate = .faulted ∧ u.trace = [.opened Config.devicePath (some d),
            .configured (some d) Config.spiMode Config.spiMaxHz Config.spiWordBits false]) ∧
        (∀ confs rxs, s.transport.configures = true :: confs →
          (rxs.length < 9 → s.transport.xfers = rxs.map answerOf →
            u.cstate = .initializing ∧ u.trace = powerUpEvents d ++ exchanges (some d) powerUpRequests rxs) ∧
          (∀ w ms bad more, powerUpRequests[rxs.length]? = some (w, ms) → xferResult bad = none →
            s.transport.xfers = rxs.map answerOf ++ bad :: more →
            u.cstate = .faulted ∧ u.trace = powerUpEvents d ++ exchanges (some d) powerUpRequests rxs ++
              [.xfer (some d) (frameOf w) none]) ∧
          (∀ more r8, rxs.length = 9 → rxs[7]? = some r8 → s.transport.xfers = rxs.map answerOf ++ more →
            u.cstate = .operational ∧ u.trace = powerUpEvents d ++ exchanges (some d) powerUpRequests rxs ∧
            u.result.outcome = if r8.b1 ++ r8.b2 = 0x0051#16 then .ok else .fail)))

/-- A query that ends FAIL changes no controller register (R154, R181, R182; which responses end FAIL is D32 and D34). -/
def Obligations.FailedQueryKeepsTheController : Prop :=
  ∀ (s t : State) (i : Instr) (a : Word), s.seq = .idle → s.cstate = .operational →
    i = .readTemp ∨ i = .readAcc a ∨ i = .readStatus → exec i s = .next t → t.result.outcome = .fail →
    sameController s t

/-- The two open parameters of the success conditions do not matter on ordinary responses: with or without ID_REQUIRES_VALID the
identity check agrees on a valid response, with or without STATUS_REQUIRES_CRC the status check agrees on a response with a good
checksum and a status other than 2 (U7, U8). -/
def Obligations.AlternativeChecksAgreeOnValidResponses : Prop :=
  ∀ f : Frame,
    (isValid f = true → identityOk true (respOf f) = identityOk false (respOf f)) ∧
    (crcCheck f = true → f.b0.extractLsb' 0 2 ≠ 2#2 →
      statusSuccess true (respOf f) = statusSuccess false (respOf f))
end

