-- ==== Sys2Proof/Laws/Operands.lean ====
section
/-! SUPPORT. The bytes and fields of a frame word, bit by bit and field by field (R48, R60). -/

namespace Sys2Proof.Machine

/-- Where each bit of an assembled word comes from. -/
theorem getLsbD_wordOf (f : Frame) (i : Nat) :
    (wordOf f).getLsbD i =
      if i < 8 then f.b3.getLsbD i
      else if i < 16 then f.b2.getLsbD (i - 8)
      else if i < 24 then f.b1.getLsbD (i - 16)
      else f.b0.getLsbD (i - 24) := by
  have h3 : (wordOf f).getLsbD i = if i < 8 then f.b3.getLsbD i else (f.b0 ++ f.b1 ++ f.b2).getLsbD (i - 8) :=
    BitVec.getLsbD_append
  have h2 (j : Nat) : (f.b0 ++ f.b1 ++ f.b2).getLsbD j = if j < 8 then f.b2.getLsbD j else (f.b0 ++ f.b1).getLsbD (j - 8) :=
    BitVec.getLsbD_append
  have h1 (j : Nat) : (f.b0 ++ f.b1).getLsbD j = if j < 8 then f.b1.getLsbD j else f.b0.getLsbD (j - 8) :=
    BitVec.getLsbD_append
  rw [h3, h2, h1]
  split_ifs <;> first | omega | (congr 1; try omega)

/-- Two words are equal when their 32 bits are. -/
theorem word_ext {v w : Word} (h : ∀ i, i < 32 → v.getLsbD i = w.getLsbD i) : v = w :=
  BitVec.eq_of_getLsbD_eq h

/-- The status field of an assembled word is the low two bits of the first byte. -/
theorem rsField_wordOf (f : Frame) : rsField (wordOf f) = f.b0.extractLsb' 0 2 := by
  apply BitVec.eq_of_getLsbD_eq
  intro i hi
  simp only [rsField, BitVec.getLsbD_extractLsb', getLsbD_wordOf]
  simp only [show ¬ 24 + i < 8 by omega, show ¬ 24 + i < 16 by omega, show ¬ 24 + i < 24 by omega, if_false]
  congr 2
  omega

/-- The payload of an assembled word is its two middle bytes. -/
theorem dataField_wordOf (f : Frame) : dataField (wordOf f) = f.b1 ++ f.b2 := by
  apply BitVec.eq_of_getLsbD_eq
  intro i hi
  have h : (f.b1 ++ f.b2 : Half).getLsbD i = if i < 8 then f.b2.getLsbD i else f.b1.getLsbD (i - 8) :=
    BitVec.getLsbD_append
  simp only [dataField, BitVec.getLsbD_extractLsb', getLsbD_wordOf, h]
  simp only [show ¬ 8 + i < 8 by omega, hi, decide_true, Bool.true_and, if_false]
  split_ifs <;> first | omega | (congr 1; omega)

/-- The trailer of an assembled word is its last byte. -/
theorem crcField_wordOf (f : Frame) : crcField (wordOf f) = f.b3 := by
  apply BitVec.eq_of_getLsbD_eq
  intro i hi
  simp [crcField, getLsbD_wordOf, hi]

@[simp] theorem respOf_rs (f : Frame) : (respOf f).rs = f.b0.extractLsb' 0 2 := rsField_wordOf f

@[simp] theorem respOf_data (f : Frame) : (respOf f).data = f.b1 ++ f.b2 := dataField_wordOf f

@[simp] theorem respOf_crc (f : Frame) : (respOf f).crc = f.b3 := crcField_wordOf f

@[simp] theorem respOf_isValid (f : Frame) : (respOf f).isValid = isValid f := rfl

end Sys2Proof.Machine
end

