-- ==== Sys2Proof/Laws/State.lean ====
section
/-! SUPPORT. One lemma for each field of State under each shared update, so that no proof unfolds a record update. -/

namespace Sys2Proof.Machine

variable (s : State)

/-! ### `State.log` -/

@[simp] theorem State.log_cstate (e : Event) : (s.log e).cstate = s.cstate := rfl
@[simp] theorem State.log_handle (e : Event) : (s.log e).handle = s.handle := rfl
@[simp] theorem State.log_mode (e : Event) : (s.log e).mode = s.mode := rfl
@[simp] theorem State.log_sens (e : Event) : (s.log e).sens = s.sens := rfl
@[simp] theorem State.log_seq (e : Event) : (s.log e).seq = s.seq := rfl
@[simp] theorem State.log_txWord (e : Event) : (s.log e).txWord = s.txWord := rfl
@[simp] theorem State.log_rxWord (e : Event) : (s.log e).rxWord = s.rxWord := rfl
@[simp] theorem State.log_crcUnit (e : Event) : (s.log e).crcUnit = s.crcUnit := rfl
@[simp] theorem State.log_resp (e : Event) : (s.log e).resp = s.resp := rfl
@[simp] theorem State.log_flags (e : Event) : (s.log e).flags = s.flags := rfl
@[simp] theorem State.log_result (e : Event) : (s.log e).result = s.result := rfl
@[simp] theorem State.log_trace (e : Event) : (s.log e).trace = s.trace ++ [e] := rfl
@[simp] theorem State.log_port (e : Event) : (s.log e).port = s.port := rfl
@[simp] theorem State.log_transport (e : Event) : (s.log e).transport = s.transport := rfl

/-! ### `State.finish` -/

@[simp] theorem State.finish_cstate (o : OutcomeCode) (v : Option Value) : (s.finish o v).cstate = s.cstate := rfl
@[simp] theorem State.finish_handle (o : OutcomeCode) (v : Option Value) : (s.finish o v).handle = s.handle := rfl
@[simp] theorem State.finish_mode (o : OutcomeCode) (v : Option Value) : (s.finish o v).mode = s.mode := rfl
@[simp] theorem State.finish_sens (o : OutcomeCode) (v : Option Value) : (s.finish o v).sens = s.sens := rfl
@[simp] theorem State.finish_seq (o : OutcomeCode) (v : Option Value) : (s.finish o v).seq = .idle := rfl
@[simp] theorem State.finish_txWord (o : OutcomeCode) (v : Option Value) : (s.finish o v).txWord = s.txWord := rfl
@[simp] theorem State.finish_rxWord (o : OutcomeCode) (v : Option Value) : (s.finish o v).rxWord = s.rxWord := rfl
@[simp] theorem State.finish_crcUnit (o : OutcomeCode) (v : Option Value) : (s.finish o v).crcUnit = s.crcUnit := rfl
@[simp] theorem State.finish_resp (o : OutcomeCode) (v : Option Value) : (s.finish o v).resp = s.resp := rfl
@[simp] theorem State.finish_flags (o : OutcomeCode) (v : Option Value) : (s.finish o v).flags = s.flags := rfl
@[simp] theorem State.finish_result (o : OutcomeCode) (v : Option Value) : (s.finish o v).result = { s.result with outcome := o, value := v } := rfl
@[simp] theorem State.finish_trace (o : OutcomeCode) (v : Option Value) : (s.finish o v).trace = s.trace := rfl
@[simp] theorem State.finish_port (o : OutcomeCode) (v : Option Value) : (s.finish o v).port = s.port := rfl
@[simp] theorem State.finish_transport (o : OutcomeCode) (v : Option Value) : (s.finish o v).transport = s.transport := rfl

/-! ### `State.refuse` -/

@[simp] theorem State.refuse_cstate : (s.refuse).cstate = s.cstate := rfl
@[simp] theorem State.refuse_handle : (s.refuse).handle = s.handle := rfl
@[simp] theorem State.refuse_mode : (s.refuse).mode = s.mode := rfl
@[simp] theorem State.refuse_sens : (s.refuse).sens = s.sens := rfl
@[simp] theorem State.refuse_seq : (s.refuse).seq = s.seq := rfl
@[simp] theorem State.refuse_txWord : (s.refuse).txWord = s.txWord := rfl
@[simp] theorem State.refuse_rxWord : (s.refuse).rxWord = s.rxWord := rfl
@[simp] theorem State.refuse_crcUnit : (s.refuse).crcUnit = s.crcUnit := rfl
@[simp] theorem State.refuse_resp : (s.refuse).resp = s.resp := rfl
@[simp] theorem State.refuse_flags : (s.refuse).flags = s.flags := rfl
@[simp] theorem State.refuse_result : (s.refuse).result = ⟨.refused, none, .unspecified⟩ := rfl
@[simp] theorem State.refuse_trace : (s.refuse).trace = s.trace := rfl
@[simp] theorem State.refuse_port : (s.refuse).port = s.port := rfl
@[simp] theorem State.refuse_transport : (s.refuse).transport = s.transport := rfl

/-! ### `State.transportFault` -/

@[simp] theorem State.transportFault_cstate : (s.transportFault).cstate = .faulted := rfl
@[simp] theorem State.transportFault_handle : (s.transportFault).handle = s.handle := rfl
@[simp] theorem State.transportFault_mode : (s.transportFault).mode = s.mode := rfl
@[simp] theorem State.transportFault_sens : (s.transportFault).sens = s.sens := rfl
@[simp] theorem State.transportFault_seq : (s.transportFault).seq = .idle := rfl
@[simp] theorem State.transportFault_txWord : (s.transportFault).txWord = s.txWord := rfl
@[simp] theorem State.transportFault_rxWord : (s.transportFault).rxWord = s.rxWord := rfl
@[simp] theorem State.transportFault_crcUnit : (s.transportFault).crcUnit = s.crcUnit := rfl
@[simp] theorem State.transportFault_resp : (s.transportFault).resp = s.resp := rfl
@[simp] theorem State.transportFault_flags : (s.transportFault).flags = s.flags := rfl
@[simp] theorem State.transportFault_result : (s.transportFault).result = ⟨.fault, none, faultDiag s.seq s.result.diag⟩ := rfl
@[simp] theorem State.transportFault_trace : (s.transportFault).trace = s.trace := rfl
@[simp] theorem State.transportFault_port : (s.transportFault).port = s.port := rfl
@[simp] theorem State.transportFault_transport : (s.transportFault).transport = s.transport := rfl

/-! ### `State.receive` -/

@[simp] theorem State.receive_cstate (c : Cmd) (rx : Frame) : (s.receive c rx).cstate = s.cstate := rfl
@[simp] theorem State.receive_handle (c : Cmd) (rx : Frame) : (s.receive c rx).handle = s.handle := rfl
@[simp] theorem State.receive_mode (c : Cmd) (rx : Frame) : (s.receive c rx).mode = s.mode := rfl
@[simp] theorem State.receive_sens (c : Cmd) (rx : Frame) : (s.receive c rx).sens = s.sens := rfl
@[simp] theorem State.receive_seq (c : Cmd) (rx : Frame) : (s.receive c rx).seq = s.seq := rfl
@[simp] theorem State.receive_txWord (c : Cmd) (rx : Frame) : (s.receive c rx).txWord = s.txWord := rfl
@[simp] theorem State.receive_rxWord (c : Cmd) (rx : Frame) : (s.receive c rx).rxWord = wordOf rx := rfl
@[simp] theorem State.receive_crcUnit (c : Cmd) (rx : Frame) : (s.receive c rx).crcUnit = crcOfFrame rx := rfl
@[simp] theorem State.receive_resp (c : Cmd) (rx : Frame) : (s.receive c rx).resp = respOf rx := rfl
@[simp] theorem State.receive_flags (c : Cmd) (rx : Frame) : (s.receive c rx).flags = { s.flags with crcOk := crcCheck rx } := rfl
@[simp] theorem State.receive_result (c : Cmd) (rx : Frame) : (s.receive c rx).result = s.result := rfl
@[simp] theorem State.receive_trace (c : Cmd) (rx : Frame) : (s.receive c rx).trace = s.trace ++ [.xfer s.handle (frameOf c.word) (some rx), .delay (settle c)] := rfl
@[simp] theorem State.receive_port (c : Cmd) (rx : Frame) : (s.receive c rx).port = s.port := rfl
@[simp] theorem State.receive_transport (c : Cmd) (rx : Frame) : (s.receive c rx).transport = s.transport := rfl

/-! ### `State.deliver` -/

@[simp] theorem State.deliver_cstate (ok : Bool) (v : Value) : (s.deliver ok v).cstate = s.cstate := rfl
@[simp] theorem State.deliver_handle (ok : Bool) (v : Value) : (s.deliver ok v).handle = s.handle := rfl
@[simp] theorem State.deliver_mode (ok : Bool) (v : Value) : (s.deliver ok v).mode = s.mode := rfl
@[simp] theorem State.deliver_sens (ok : Bool) (v : Value) : (s.deliver ok v).sens = s.sens := rfl
@[simp] theorem State.deliver_seq (ok : Bool) (v : Value) : (s.deliver ok v).seq = .idle := rfl
@[simp] theorem State.deliver_txWord (ok : Bool) (v : Value) : (s.deliver ok v).txWord = s.txWord := rfl
@[simp] theorem State.deliver_rxWord (ok : Bool) (v : Value) : (s.deliver ok v).rxWord = s.rxWord := rfl
@[simp] theorem State.deliver_crcUnit (ok : Bool) (v : Value) : (s.deliver ok v).crcUnit = s.crcUnit := rfl
@[simp] theorem State.deliver_resp (ok : Bool) (v : Value) : (s.deliver ok v).resp = s.resp := rfl
@[simp] theorem State.deliver_flags (ok : Bool) (v : Value) : (s.deliver ok v).flags = { s.flags with success := ok } := rfl
@[simp] theorem State.deliver_result (ok : Bool) (v : Value) : (s.deliver ok v).result = { s.result with outcome := codeOf ok, value := if ok then some v else none } := rfl
@[simp] theorem State.deliver_trace (ok : Bool) (v : Value) : (s.deliver ok v).trace = s.trace := rfl
@[simp] theorem State.deliver_port (ok : Bool) (v : Value) : (s.deliver ok v).port = s.port := rfl
@[simp] theorem State.deliver_transport (ok : Bool) (v : Value) : (s.deliver ok v).transport = s.transport := rfl

/-! ### `State.resetCore` -/

@[simp] theorem State.resetCore_cstate : s.resetCore.cstate = .uninit := rfl
@[simp] theorem State.resetCore_handle : s.resetCore.handle = none := rfl
@[simp] theorem State.resetCore_mode : s.resetCore.mode = .mode3 := rfl
@[simp] theorem State.resetCore_sens : s.resetCore.sens = 5400#32 := rfl
@[simp] theorem State.resetCore_seq : s.resetCore.seq = .idle := rfl
@[simp] theorem State.resetCore_txWord : s.resetCore.txWord = 0#32 := rfl
@[simp] theorem State.resetCore_rxWord : s.resetCore.rxWord = 0#32 := rfl
@[simp] theorem State.resetCore_crcUnit : s.resetCore.crcUnit = ⟨0#8, 0#8, false⟩ := rfl
@[simp] theorem State.resetCore_resp : s.resetCore.resp = ⟨0#2, 0#16, 0#8, false⟩ := rfl
@[simp] theorem State.resetCore_flags : s.resetCore.flags = ⟨false, false, false⟩ := rfl
@[simp] theorem State.resetCore_result : s.resetCore.result = ⟨.none, none, .unspecified⟩ := rfl
@[simp] theorem State.resetCore_trace : s.resetCore.trace = [] := rfl
@[simp] theorem State.resetCore_port : s.resetCore.port = s.port := rfl
@[simp] theorem State.resetCore_transport : s.resetCore.transport = s.transport := rfl

/-! ### `State.present` -/

@[simp] theorem State.present_cstate (c : Cmd) : (s.present c).cstate = s.cstate := by cases c <;> rfl

@[simp] theorem State.present_handle (c : Cmd) : (s.present c).handle = s.handle := by cases c <;> rfl

theorem State.present_mode (c : Cmd) : (s.present c).mode = if c = .writeMode3 then initMode else s.mode := by
  cases c <;> rfl

theorem State.present_sens (c : Cmd) : (s.present c).sens = if c = .writeMode3 then sensOf initMode else s.sens := by
  cases c <;> rfl

@[simp] theorem State.present_seq (c : Cmd) : (s.present c).seq = s.seq := by cases c <;> rfl

@[simp] theorem State.present_txWord (c : Cmd) : (s.present c).txWord = c.word := by cases c <;> rfl

@[simp] theorem State.present_rxWord (c : Cmd) : (s.present c).rxWord = s.rxWord := by cases c <;> rfl

@[simp] theorem State.present_crcUnit (c : Cmd) : (s.present c).crcUnit = s.crcUnit := by cases c <;> rfl

@[simp] theorem State.present_resp (c : Cmd) : (s.present c).resp = s.resp := by cases c <;> rfl

@[simp] theorem State.present_flags (c : Cmd) : (s.present c).flags = s.flags := by cases c <;> rfl

@[simp] theorem State.present_result (c : Cmd) : (s.present c).result = s.result := by cases c <;> rfl

@[simp] theorem State.present_trace (c : Cmd) : (s.present c).trace = s.trace := by cases c <;> rfl

@[simp] theorem State.present_port (c : Cmd) : (s.present c).port = s.port := by cases c <;> rfl

@[simp] theorem State.present_transport (c : Cmd) : (s.present c).transport = s.transport := by cases c <;> rfl

/-! ### `State.examine` -/

@[simp] theorem State.examine_cstate (op : SeqOp) (k : Nat) : (s.examine op k).cstate = s.cstate := by
  cases op <;> simp only [State.examine]
  split <;> rfl

@[simp] theorem State.examine_handle (op : SeqOp) (k : Nat) : (s.examine op k).handle = s.handle := by
  cases op <;> simp only [State.examine]
  split <;> rfl

@[simp] theorem State.examine_mode (op : SeqOp) (k : Nat) : (s.examine op k).mode = s.mode := by
  cases op <;> simp only [State.examine]
  split <;> rfl

@[simp] theorem State.examine_sens (op : SeqOp) (k : Nat) : (s.examine op k).sens = s.sens := by
  cases op <;> simp only [State.examine]
  split <;> rfl

@[simp] theorem State.examine_seq (op : SeqOp) (k : Nat) : (s.examine op k).seq = s.seq := by
  cases op <;> simp only [State.examine]
  split <;> rfl

@[simp] theorem State.examine_txWord (op : SeqOp) (k : Nat) : (s.examine op k).txWord = s.txWord := by
  cases op <;> simp only [State.examine]
  split <;> rfl

@[simp] theorem State.examine_rxWord (op : SeqOp) (k : Nat) : (s.examine op k).rxWord = s.rxWord := by
  cases op <;> simp only [State.examine]
  split <;> rfl

@[simp] theorem State.examine_crcUnit (op : SeqOp) (k : Nat) : (s.examine op k).crcUnit = s.crcUnit := by
  cases op <;> simp only [State.examine]
  split <;> rfl

@[simp] theorem State.examine_resp (op : SeqOp) (k : Nat) : (s.examine op k).resp = s.resp := by
  cases op <;> simp only [State.examine]
  split <;> rfl

theorem State.examine_flags (op : SeqOp) (k : Nat) : (s.examine op k).flags =
    if op = .init ∧ k = 10 then { s.flags with idOk := identityOk Config.idRequiresValid s.resp } else s.flags := by
  cases op <;> simp only [State.examine, reduceCtorEq, false_and, true_and, if_false]
  split <;> rfl

@[simp] theorem State.examine_result (op : SeqOp) (k : Nat) : (s.examine op k).result = s.result := by
  cases op <;> simp only [State.examine]
  split <;> rfl

@[simp] theorem State.examine_trace (op : SeqOp) (k : Nat) : (s.examine op k).trace = s.trace := by
  cases op <;> simp only [State.examine]
  split <;> rfl

@[simp] theorem State.examine_port (op : SeqOp) (k : Nat) : (s.examine op k).port = s.port := by
  cases op <;> simp only [State.examine]
  split <;> rfl

@[simp] theorem State.examine_transport (op : SeqOp) (k : Nat) : (s.examine op k).transport = s.transport := by
  cases op <;> simp only [State.examine]
  split <;> rfl

/-! ### `State.supply` -/

@[simp] theorem State.supply_cstate (more : List (Option (List Byte))) : (s.supply more).cstate = s.cstate := rfl
@[simp] theorem State.supply_handle (more : List (Option (List Byte))) : (s.supply more).handle = s.handle := rfl
@[simp] theorem State.supply_mode (more : List (Option (List Byte))) : (s.supply more).mode = s.mode := rfl
@[simp] theorem State.supply_sens (more : List (Option (List Byte))) : (s.supply more).sens = s.sens := rfl
@[simp] theorem State.supply_seq (more : List (Option (List Byte))) : (s.supply more).seq = s.seq := rfl
@[simp] theorem State.supply_txWord (more : List (Option (List Byte))) : (s.supply more).txWord = s.txWord := rfl
@[simp] theorem State.supply_rxWord (more : List (Option (List Byte))) : (s.supply more).rxWord = s.rxWord := rfl
@[simp] theorem State.supply_crcUnit (more : List (Option (List Byte))) : (s.supply more).crcUnit = s.crcUnit := rfl
@[simp] theorem State.supply_resp (more : List (Option (List Byte))) : (s.supply more).resp = s.resp := rfl
@[simp] theorem State.supply_flags (more : List (Option (List Byte))) : (s.supply more).flags = s.flags := rfl
@[simp] theorem State.supply_result (more : List (Option (List Byte))) : (s.supply more).result = s.result := rfl
@[simp] theorem State.supply_trace (more : List (Option (List Byte))) : (s.supply more).trace = s.trace := rfl
@[simp] theorem State.supply_port (more : List (Option (List Byte))) : (s.supply more).port = s.port := rfl
@[simp] theorem State.supply_transport (more : List (Option (List Byte))) : (s.supply more).transport =
    { s.transport with xfers := s.transport.xfers ++ more } := rfl

end Sys2Proof.Machine
end

