-- ==== Sys2Proof/Laws/Converter.lean ====
section
/-! SUPPORT. The Unit Converter's rounding: what `rhaz` gives on each side of zero, and the temperature as one rounded
quotient (R114, R115). -/

namespace Sys2Proof.Machine

theorem rhaz_of_nonneg {q : Rat} (h : 0 ≤ q) : rhaz q = (q + 1 / 2).floor := by simp [rhaz, not_lt.mpr h]

theorem rhaz_of_neg {q : Rat} (h : q < 0) : rhaz q = -(-q + 1 / 2).floor := by simp [rhaz, h]

/-- The floor of `q + 1/2` lies within half of `q`. -/
theorem floor_add_half_bounds (q : Rat) : ((q + 1 / 2).floor : Rat) ≤ q + 1 / 2 ∧ q - 1 / 2 < (q + 1 / 2).floor := by
  have h1 := Rat.floor_le (q + 1 / 2)
  have h2 := Rat.lt_floor_add_one (q + 1 / 2)
  push_cast at h2
  constructor <;> linarith

/-- The exact temperature is the second line of R114. -/
theorem convTemp_eq (raw : Half) : convTemp raw = rhaz ((1000 * (raw.toNat : Rat) - 5162535) / 189) := by
  simp only [convTemp, tempWith, Config.tempArith, tempExact, exactTemp]
  congr 1
  ring

/-- A selector outside the table is unrecognized (R76). -/
theorem modeOf?_none {sel : Word} (h : sel.toNat = 0 ∨ 4 < sel.toNat) : modeOf? sel = none := by
  unfold modeOf?
  split <;> first | omega | rfl

theorem axisOf?_none {sel : Word} (h : 2 < sel.toNat) : axisOf? sel = none := by
  unfold axisOf?
  split <;> first | omega | rfl

end Sys2Proof.Machine
end

