-- ==== Sys2Proof/Laws/Crc.lean ====
section
/-! SUPPORT. The CRC-8 Validator's computation: the bit step in the two-term form of R95, the computation as one fold over 24
bits, and its linearity over GF(2) (R96). -/

namespace Sys2Proof.Machine

/-- The bit step on the register alone, in the form of R95. -/
def polyStep (r : Byte) (b : Bool) : Byte := (r <<< 1) ^^^ (if r.msb != b then 0x1D#8 else 0#8)

/-- The source's step and the two-term form agree on all 512 inputs (R95). -/
theorem crcStep_crc (u : CrcUnit) (b : Bool) : (crcStep u b).crc = polyStep u.crc b := by
  have key : ∀ (c : Byte) (b : Bool), (crcStep ⟨c, 0#8, false⟩ b).crc = polyStep c b := by decide +kernel
  exact key u.crc b

theorem foldl_crcStep_crc (l : List Bool) (u : CrcUnit) : (l.foldl crcStep u).crc = l.foldl polyStep u.crc := by
  induction l generalizing u with
  | nil => rfl
  | cons b l ih => simp [ih, crcStep_crc]

/-- The two-term step is linear in register and bit together. -/
theorem polyStep_xor (r r' : Byte) (b b' : Bool) : polyStep (r ^^^ r') (b ^^ b') = polyStep r b ^^^ polyStep r' b' := by
  apply BitVec.eq_of_getLsbD_eq
  intro i hi
  have pick : ∀ x y : Bool, (if (x != y) = true then 0x1D#8 else 0#8 : Byte).getLsbD i = ((x ^^ y) && (0x1D#8).getLsbD i) := by
    intro x y
    cases x <;> cases y <;> simp
  simp only [polyStep, BitVec.getLsbD_xor, BitVec.getLsbD_shiftLeft, BitVec.msb_xor, pick]
  generalize (0x1D#8).getLsbD i = g
  generalize BitVec.msb r = m
  generalize BitVec.msb r' = m'
  generalize r.getLsbD (i - 1) = u
  generalize r'.getLsbD (i - 1) = v
  by_cases h0 : i = 0 <;> simp [h0, hi] <;> cases m <;> cases m' <;> cases b <;> cases b' <;> cases g <;> cases u <;>
    cases v <;> simp

theorem foldl_polyStep_xor (l l' : List Bool) (h : l.length = l'.length) (r r' : Byte) :
    (List.zipWith (fun a b => a ^^ b) l l').foldl polyStep (r ^^^ r') = l.foldl polyStep r ^^^ l'.foldl polyStep r' := by
  induction l generalizing l' r r' with
  | nil => cases l' <;> simp_all
  | cons b l ih =>
    cases l' with
    | nil => simp at h
    | cons b' l' =>
      simp only [List.zipWith_cons_cons, List.foldl_cons, polyStep_xor]
      exact ih _ (by simpa using h) _ _

/-- The register after the 24 steps over three bytes, from any starting value. -/
def polyRun (b0 b1 b2 : Byte) (r : Byte) : Byte := (bitsOf b0 ++ bitsOf b1 ++ bitsOf b2).foldl polyStep r

theorem crcCompute_polyRun (b0 b1 b2 : Byte) : crcCompute b0 b1 b2 = ~~~polyRun b0 b1 b2 0xFF#8 := by
  simp [crcCompute, crcRun, foldl_crcStep_crc, polyRun, crcStart]

/-- The 24 steps are linear in the register and the three bytes together. -/
theorem polyRun_xor (a b c x y z r r' : Byte) :
    polyRun (a ^^^ x) (b ^^^ y) (c ^^^ z) (r ^^^ r') = polyRun a b c r ^^^ polyRun x y z r' := by
  unfold polyRun
  rw [← foldl_polyStep_xor _ _ (by simp [bitsOf])]
  simp [bitsOf]

/-- Flipping input bits changes the checksum by what the flips alone give from a zero register. -/
theorem crcCompute_flip (a b c x y z : Byte) :
    crcCompute (a ^^^ x) (b ^^^ y) (c ^^^ z) = crcCompute a b c ^^^ polyRun x y z 0#8 := by
  have h := polyRun_xor a b c x y z 0xFF#8 0#8
  simp only [BitVec.xor_zero] at h
  rw [crcCompute_polyRun, crcCompute_polyRun, h, BitVec.not_xor_left]

end Sys2Proof.Machine
end

