-- ==== Sys2Proof/Laws/Flags.lean ====
section
/-! SUPPORT. The success conditions (R104, R145). -/

namespace Sys2Proof.Machine

theorem statusValid_iff (rs : BitVec 2) : statusValid rs = true ↔ rs = 0#2 ∨ rs = 1#2 := by
  simp [statusValid, rsStartup, rsNormal]

/-- A valid response does not carry the error code. -/
theorem respOf_rs_ne_error {f : Frame} (h : isValid f = true) : (respOf f).rs ≠ rsError := by
  simp only [isValid, Bool.and_eq_true, statusValid_iff, rsField_wordOf] at h
  simp only [respOf_rs, rsError]
  rcases h.2 with h | h <;> simp [h]

/-- READ_TEMP's two clauses are one (R145). -/
theorem tempSuccess_respOf (f : Frame) : tempSuccess (respOf f) = isValid f := by
  cases h : isValid f
  · simp [tempSuccess, h]
  · simp only [tempSuccess, respOf_isValid, h, Bool.true_and, bne_iff_ne, ne_eq]
    exact respOf_rs_ne_error h

end Sys2Proof.Machine
end

