-- ==== Sys2Proof/Laws/Ops.lean ====
section
/-! SUPPORT. One lemma for each shared operation that says what it can do: decoding the `CMD` words, admission, a request's
three outcomes, the advance of the sequencer, INIT's own steps, and where a step comes from. -/

namespace Sys2Proof

/-! ## The command table -/

@[simp] theorem Cmd.ofWord?_word (c : Cmd) : Cmd.ofWord? c.word = some c := by cases c <;> decide

theorem Cmd.word_of_ofWord? {w : Word} {c : Cmd} (h : Cmd.ofWord? w = some c) : c.word = w := by
  have := List.find?_some h
  simpa using this

@[simp] theorem decodeWire_word (c : Cmd) : decodeWire c.word = .ok c.instr := by simp [decodeWire]

theorem decodeWire_ok {w : Word} {i : Instr} (h : decodeWire w = .ok i) : ∃ c : Cmd, w = c.word ∧ i = c.instr := by
  unfold decodeWire at h
  split at h
  · next c hc => exact ⟨c, (Cmd.word_of_ofWord? hc).symm, by simpa using h.symm⟩
  · cases h

namespace Machine

/-! ## Executing commands and admission -/

@[simp] theorem exec_instr (c : Cmd) (s : State) : exec c.instr s = .next (s.issue c) := by cases c <;> rfl

theorem whenIdle_of_idle {s : State} (h : s.seq = .idle) (f : State → State) : whenIdle s f = .next (f s) := by
  simp [whenIdle, h]

theorem whenIdle_of_busy {s : State} (h : s.seq ≠ .idle) (f : State → State) :
    whenIdle s f = .refused .operationInFlight := by
  simp [whenIdle, h]

theorem guarded_of_state {need : CState} {s : State} (h : s.seq = .idle) (hc : s.cstate = need) (f : State → State) :
    guarded need s f = .next (f s) := by
  simp [guarded, whenIdle, h, hc]

theorem guarded_of_other {need : CState} {s : State} (h : s.seq = .idle) (hc : s.cstate ≠ need) (f : State → State) :
    guarded need s f = .next s.refuse := by
  simp [guarded, whenIdle, h, hc]

theorem guarded_of_busy {need : CState} {s : State} (h : s.seq ≠ .idle) (f : State → State) :
    guarded need s f = .refused .operationInFlight := by
  simp [guarded, whenIdle, h]

/-! ## Requests -/

@[simp] theorem xferResult_answerOf (f : Frame) : xferResult (answerOf f) = some f := rfl

theorem xferResult_some {a : Option (List Byte)} {f : Frame} (h : xferResult a = some f) : a = answerOf f := by
  unfold xferResult at h
  split at h
  · simp only [Option.some.injEq] at h
    subst h
    rfl
  · cases h

/-- A transfer that has not returned: the word is presented and the request waits. -/
theorem issue_waiting {s : State} (h : s.transport.xfers = []) (c : Cmd) : s.issue c = s.present c := by
  simp [State.issue, h]

/-- A transfer that fails: the event, then the transport fault. -/
theorem issue_failed {s : State} {a : Option (List Byte)} {rest : List (Option (List Byte))}
    (h : s.transport.xfers = a :: rest) (ha : xferResult a = none) (c : Cmd) :
    s.issue c = (({ s.present c with transport := { s.transport with xfers := rest } } : State).log
      (.xfer s.handle (frameOf c.word) none)).transportFault := by
  simp [State.issue, h, ha]

/-- A transfer that returns a frame at a step that issues the command: receive it, then respond. -/
theorem issue_answered {s : State} {a : Option (List Byte)} {rest : List (Option (List Byte))} {rx : Frame}
    (h : s.transport.xfers = a :: rest) (ha : xferResult a = some rx) {c : Cmd} (hc : s.seq.cmd? = some c) :
    s.issue c =
      (({ s.present c with transport := { s.transport with xfers := rest } } : State).receive c rx).respond := by
  simp [State.issue, h, ha, hc]

/-- A transfer that returns a frame elsewhere: receive it, nothing more. -/
theorem issue_alone {s : State} {a : Option (List Byte)} {rest : List (Option (List Byte))} {rx : Frame}
    (h : s.transport.xfers = a :: rest) (ha : xferResult a = some rx) {c : Cmd} (hc : s.seq.cmd? ≠ some c) :
    s.issue c =
      ({ s.present c with transport := { s.transport with xfers := rest } } : State).receive c rx := by
  simp [State.issue, h, ha, hc]

/-! ## The sequencer -/

theorem respond_advance {s : State} {op : SeqOp} {k : Nat} (h : s.seq = .busy op k) (hk : k + 1 ≠ stepCount op) :
    s.respond = { s.examine op k with seq := .busy op (k + 1) } := by
  simp [State.respond, h, hk]

theorem respond_last {s : State} {op : SeqOp} {k : Nat} (h : s.seq = .busy op k) (hk : k + 1 = stepCount op) :
    s.respond = (s.examine op k).complete op := by
  simp [State.respond, h, hk]

theorem seqStep_of_cmd {s : State} {c : Cmd} (h : s.seq.cmd? = some c) : s.seqStep = s.issue c := by
  simp [State.seqStep, h]

theorem seqStep_of_none {s : State} (h : s.seq.cmd? = none) : s.seqStep = s.internalStep := by
  simp [State.seqStep, h]

@[simp] theorem seqStep_idle {s : State} (h : s.seq = .idle) : s.seqStep = s := by
  simp [State.seqStep, State.internalStep, Seq.cmd?, h]

theorem runSeq_idle {s : State} (h : s.seq = .idle) (n : Nat) : State.runSeq n s = s := by
  induction n with
  | zero => rfl
  | succ n ih => simp [State.runSeq, seqStep_idle h, ih]

theorem runSeq_add (m n : Nat) (s : State) : State.runSeq (m + n) s = State.runSeq n (State.runSeq m s) := by
  induction m generalizing s with
  | zero => simp [State.runSeq]
  | succ m ih => rw [Nat.succ_add]; exact ih _

theorem cmd?_isSome {op : SeqOp} {k : Nat} (h : stepsBefore op ≤ k) (hk : k < stepCount op) :
    ∃ c, Seq.cmd? (.busy op k) = some c := by
  have hlt : k - stepsBefore op < (expansion op).length := by unfold stepCount at hk; omega
  exact ⟨(expansion op)[k - stepsBefore op], by simp [Seq.cmd?, Nat.not_lt.mpr h, hlt]⟩

/-- A step that is a request lies inside its operation's list. -/
theorem cmd?_some {op : SeqOp} {k : Nat} {c : Cmd} (h : Seq.cmd? (.busy op k) = some c) :
    stepsBefore op ≤ k ∧ k < stepCount op ∧ c ∈ expansion op := by
  by_cases hk : k < stepsBefore op
  · simp [Seq.cmd?, hk] at h
  · have hget : (expansion op)[k - stepsBefore op]? = some c := by cases op <;> simpa [Seq.cmd?, hk] using h
    have hlt := (List.getElem?_eq_some_iff.mp hget).1
    refine ⟨by omega, ?_, List.mem_of_getElem? hget⟩
    unfold stepCount
    omega

/-! ## INIT's own steps -/

theorem internalStep_open {s : State} (h : s.seq = .busy .init 0) : s.internalStep = s.openStep := by
  simp [State.internalStep, h]

theorem internalStep_configure {s : State} (h : s.seq = .busy .init 1) : s.internalStep = s.configureStep := by
  simp [State.internalStep, h]

theorem internalStep_delay {s : State} (h : s.seq = .busy .init 2) : s.internalStep = s.delayStep := by
  simp [State.internalStep, h]

/-- `open` has not returned. -/
theorem openStep_waiting {s : State} (h : s.transport.opens = []) : s.openStep = s := by simp [State.openStep, h]

/-- `open` returned a handle. -/
theorem openStep_opened {s : State} {d : Handle} {rest : List (Option Handle)} (h : s.transport.opens = some d :: rest) :
    s.openStep = { s with
      handle := some d, cstate := .initializing, seq := .busy .init 1
      trace := s.trace ++ [.opened Config.devicePath (some d)]
      transport := { s.transport with opens := rest } } := by
  simp [State.openStep, h, State.log]

/-- `open` failed: the event, then the transport fault. -/
theorem openStep_failed {s : State} {rest : List (Option Handle)} (h : s.transport.opens = none :: rest) :
    s.openStep = (({ s with transport := { s.transport with opens := rest } } : State).log
      (.opened Config.devicePath none)).transportFault := by
  simp [State.openStep, h]

/-- `configure` has not returned. -/
theorem configureStep_waiting {s : State} (h : s.transport.configures = []) : s.configureStep = s := by
  simp [State.configureStep, h]

/-- `configure` succeeded. -/
theorem configureStep_configured {s : State} {rest : List Bool} (h : s.transport.configures = true :: rest) :
    s.configureStep = { s with
      seq := .busy .init 2
      trace := s.trace ++ [.configured s.handle Config.spiMode Config.spiMaxHz Config.spiWordBits true]
      transport := { s.transport with configures := rest } } := by
  simp [State.configureStep, h, State.log]

/-- `configure` failed: the event, then the transport fault. -/
theorem configureStep_failed {s : State} {rest : List Bool} (h : s.transport.configures = false :: rest) :
    s.configureStep = (({ s with transport := { s.transport with configures := rest } } : State).log
      (.configured s.handle Config.spiMode Config.spiMaxHz Config.spiWordBits false)).transportFault := by
  simp [State.configureStep, h]

/-! ## The step -/

theorem step_reset {s : State} {rest : List PortInput} (h : s.port = .reset :: rest) :
    step s = .next ({ s with port := rest } : State).resetCore := by
  simp [step, fetchAndRun, h]

theorem step_of_idle {s : State} (h : s.seq = .idle) (hr : noReset s) : step s = acceptStep s := by
  unfold step fetchAndRun
  split
  · next rest hp => exact absurd hp (hr rest)
  · simp [h]
  · simp [h]

theorem step_of_busy {s : State} (h : s.seq ≠ .idle) (hr : noReset s) : step s = resumeStep s := by
  unfold step fetchAndRun
  split
  · next rest hp => exact absurd hp (hr rest)
  · simp [h]
  · simp [h]

end Machine
end Sys2Proof
end

