-- ==== Sys2Proof/Laws/Step.lean ====
section
/-! SUPPORT. Everything a step can do, said once: what one step of the sequencer does (`SeqEffect`), what a host operation
does (`HostEffect`), what a step of a coherent machine does (`StepEffect`), and how runs of the sequencer add up. -/

namespace Sys2Proof.Machine

/-! ## Fields after the end of an operation -/

theorem complete_fields (s : State) (op : SeqOp) :
    (s.complete op).handle = s.handle ∧ (s.complete op).mode = s.mode ∧ (s.complete op).sens = s.sens ∧
    (s.complete op).seq = .idle ∧ (s.complete op).txWord = s.txWord ∧ (s.complete op).trace = s.trace ∧
    (s.complete op).transport = s.transport ∧ (s.complete op).port = s.port ∧
    (s.complete op).cstate = if op = .init then .operational else s.cstate := by
  cases op <;> simp [State.complete]

/-! ## One step of the sequencer -/

/-- A request answered with `rx`, before the step looks at the response. -/
def State.answered (s : State) (c : Cmd) (rx : Frame) (rest : List (Option (List Byte))) : State :=
  ({ s.present c with transport := { s.transport with xfers := rest } } : State).receive c rx

/-- What one step of the operation in progress does. -/
inductive SeqEffect (s t : State) : Prop
  /-- `open` or `configure` has not returned -/
  | hold : t = s → SeqEffect s t
  /-- `open` returned a handle -/
  | opened (h : Handle) (rest : List (Option Handle)) : s.seq = .busy .init 0 →
      t = { s with
        handle := some h, cstate := .initializing, seq := .busy .init 1
        trace := s.trace ++ [.opened Config.devicePath (some h)]
        transport := { s.transport with opens := rest } } → SeqEffect s t
  /-- `open` failed -/
  | openFailed (rest : List (Option Handle)) : s.seq = .busy .init 0 →
      t = (({ s with transport := { s.transport with opens := rest } } : State).log
        (.opened Config.devicePath none)).transportFault → SeqEffect s t
  /-- `configure` succeeded -/
  | configured (rest : List Bool) : s.seq = .busy .init 1 →
      t = { s with
        seq := .busy .init 2
        trace := s.trace ++ [.configured s.handle Config.spiMode Config.spiMaxHz Config.spiWordBits true]
        transport := { s.transport with configures := rest } } → SeqEffect s t
  /-- `configure` failed -/
  | configureFailed (rest : List Bool) : s.seq = .busy .init 1 →
      t = (({ s with transport := { s.transport with configures := rest } } : State).log
        (.configured s.handle Config.spiMode Config.spiMaxHz Config.spiWordBits false)).transportFault → SeqEffect s t
  /-- the power-up delay -/
  | delayed : s.seq = .busy .init 2 →
      t = { s with seq := .busy .init 3, trace := s.trace ++ [.delay 10] } → SeqEffect s t
  /-- the transfer has not returned -/
  | waiting (c : Cmd) : s.seq.cmd? = some c → s.transport.xfers = [] → t = s.present c → SeqEffect s t
  /-- the transfer failed -/
  | failed (c : Cmd) (a : Option (List Byte)) (rest : List (Option (List Byte))) : s.seq.cmd? = some c →
      s.transport.xfers = a :: rest → xferResult a = none →
      t = (({ s.present c with transport := { s.transport with xfers := rest } } : State).log
        (.xfer s.handle (frameOf c.word) none)).transportFault → SeqEffect s t
  /-- a transfer before the last returned -/
  | advanced (op : SeqOp) (k : Nat) (c : Cmd) (rx : Frame) (rest : List (Option (List Byte))) : s.seq = .busy op k →
      s.seq.cmd? = some c → s.transport.xfers = answerOf rx :: rest → k + 1 < stepCount op →
      t = { (s.answered c rx rest).examine op k with seq := .busy op (k + 1) } → SeqEffect s t
  /-- the last transfer returned -/
  | finished (op : SeqOp) (k : Nat) (c : Cmd) (rx : Frame) (rest : List (Option (List Byte))) : s.seq = .busy op k →
      s.seq.cmd? = some c → s.transport.xfers = answerOf rx :: rest → k + 1 = stepCount op →
      t = ((s.answered c rx rest).examine op k).complete op → SeqEffect s t

/-- A legal position lies inside its operation's list. -/
theorem legal_positions {c : CState} {op : SeqOp} {k : Nat} (h : (Seq.busy op k).legal c) :
    (op = .init ∧ k < 12) ∨ (op = .readTemp ∧ k < 3) ∨ ((∃ a, op = .readAcc a) ∧ k = 0) ∨ (op = .readStatus ∧ k = 0) := by
  cases op with
  | init => cases k <;> simp_all [Seq.legal]
  | readTemp => simp_all [Seq.legal]
  | readAcc a => simp_all [Seq.legal]
  | readStatus => simp_all [Seq.legal]
  | wire w => simp [Seq.legal] at h

/-- A legal position that is no request is one of INIT's first three steps. -/
theorem cmd?_none_of_legal {c : CState} {op : SeqOp} {k : Nat} (hl : (Seq.busy op k).legal c)
    (hn : Seq.cmd? (.busy op k) = none) : op = .init ∧ k < 3 := by
  by_contra hcon
  have hk : stepsBefore op ≤ k := by
    rcases legal_positions hl with ⟨rfl, h⟩ | ⟨rfl, h⟩ | ⟨⟨a, rfl⟩, h⟩ | ⟨rfl, h⟩ <;> simp only [stepsBefore]
    · simp only [true_and, not_lt] at hcon
      exact hcon
    all_goals omega
  have hlt : k < stepCount op := by
    rcases legal_positions hl with ⟨rfl, h⟩ | ⟨rfl, h⟩ | ⟨⟨a, rfl⟩, h⟩ | ⟨rfl, h⟩ <;>
      simp [stepCount, stepsBefore, expansion, h]
  obtain ⟨d, hd⟩ := cmd?_isSome hk hlt
  rw [hd] at hn
  cases hn

theorem seqStep_effect {s : State} {op : SeqOp} {k : Nat} (hs : s.seq = .busy op k) (hl : s.seq.legal s.cstate) :
    SeqEffect s s.seqStep := by
  cases hcm : s.seq.cmd? with
  | none =>
    rw [seqStep_of_none hcm]
    obtain ⟨rfl, hk⟩ := cmd?_none_of_legal (hs ▸ hl) (hs ▸ hcm)
    interval_cases k
    · rw [internalStep_open hs]
      rcases ho : s.transport.opens with _ | ⟨_ | h, rest⟩
      · exact .hold (openStep_waiting ho)
      · exact .openFailed rest hs (openStep_failed ho)
      · exact .opened h rest hs (openStep_opened ho)
    · rw [internalStep_configure hs]
      rcases hf : s.transport.configures with _ | ⟨_ | _, rest⟩
      · exact .hold (configureStep_waiting hf)
      · exact .configureFailed rest hs (configureStep_failed hf)
      · exact .configured rest hs (configureStep_configured hf)
    · rw [internalStep_delay hs]
      exact .delayed hs rfl
  | some c =>
    rw [seqStep_of_cmd hcm]
    cases hx : s.transport.xfers with
    | nil => exact .waiting c hcm hx (issue_waiting hx c)
    | cons a rest =>
      cases ha : xferResult a with
      | none => exact .failed c a rest hcm hx ha (issue_failed hx ha c)
      | some rx =>
        have hlt := (cmd?_some (hs ▸ hcm)).2.1
        rw [issue_answered hx ha hcm]
        have hx' : s.transport.xfers = answerOf rx :: rest := by rw [hx, xferResult_some ha]
        by_cases hk : k + 1 = stepCount op
        · exact .finished op k c rx rest hs hcm hx' hk (respond_last (by simp [hs]) hk)
        · exact .advanced op k c rx rest hs hcm hx' (by omega) (respond_advance (by simp [hs]) hk)

/-! ## A host operation -/

/-- The controller, the bus, the request word and the inputs are as before, and the sequencer is idle. -/
structure Quiet (s t : State) : Prop where
  cstate : t.cstate = s.cstate
  handle : t.handle = s.handle
  mode : t.mode = s.mode
  sens : t.sens = s.sens
  txWord : t.txWord = s.txWord
  seq : t.seq = .idle
  trace : t.trace = s.trace
  transport : t.transport = s.transport
  port : t.port = s.port

/-- What a host operation does to an idle core. -/
inductive HostEffect (h : HostWord) (s t : State) : Prop
  /-- unit operations, refusals, READ_ACC with an invalid axis -/
  | quiet : Quiet s t → HostEffect h s t
  /-- CHANGE_MODE in OPERATIONAL -/
  | modeChanged (m : Mode) : s.cstate = .operational → h.op = 2#4 → t.mode = m → t.sens = sensOf m →
      Quiet s { t with mode := s.mode, sens := s.sens } → HostEffect h s t
  /-- INIT in UNINIT -/
  | init : s.cstate = .uninit → h.op = 1#4 → t = s.perform .init → HostEffect h s t
  /-- a query in OPERATIONAL -/
  | query (op : SeqOp) : s.cstate = .operational → (op = .readTemp ∨ (∃ a, op = .readAcc a) ∨ op = .readStatus) →
      t = s.perform op → HostEffect h s t

theorem quiet_refuse {s : State} (hi : s.seq = .idle) : Quiet s s.refuse := by constructor <;> simp [hi]

theorem exec_host_effect (h : HostWord) {s : State} (hi : s.seq = .idle) :
    ∃ t, exec (decodeHost h) s = .next t ∧ HostEffect h s t := by
  unfold decodeHost
  split
  all_goals
    simp only [exec, execReserved0, execReserved6, execReserved7, execInit, execChangeMode, execReadTemp, execReadAcc,
      execReadStatus, execCrcCompute, execCrcCheck, execEncode, execAssemble, execDecode, execConvAccel, execConvTemp,
      execSens, guarded, whenIdle_of_idle hi]
    refine ⟨_, rfl, ?_⟩
  · exact .quiet (quiet_refuse hi)
  · next hop =>
    split
    · next hc => exact .init hc (BitVec.eq_of_toNat_eq hop) rfl
    · exact .quiet (quiet_refuse hi)
  · next hop =>
    split
    · next hc =>
      have hop' : h.op = 2#4 := BitVec.eq_of_toNat_eq hop
      split
      · next m hm => exact .modeChanged m hc hop' rfl rfl ⟨rfl, rfl, rfl, rfl, rfl, rfl, rfl, rfl, rfl⟩
      · exact .modeChanged .mode1 hc hop' rfl rfl ⟨rfl, rfl, rfl, rfl, rfl, rfl, rfl, rfl, rfl⟩
    · exact .quiet (quiet_refuse hi)
  · split
    · next hc => exact .query _ hc (.inl rfl) rfl
    · exact .quiet (quiet_refuse hi)
  · split
    · next hc =>
      split
      · exact .query _ hc (.inr (.inl ⟨_, rfl⟩)) rfl
      · exact .quiet ⟨rfl, rfl, rfl, rfl, rfl, rfl, rfl, rfl, rfl⟩
    · exact .quiet (quiet_refuse hi)
  · split
    · next hc => exact .query _ hc (.inr (.inr rfl)) rfl
    · exact .quiet (quiet_refuse hi)
  · exact .quiet (quiet_refuse hi)
  · exact .quiet (quiet_refuse hi)
  all_goals first
    | exact .quiet ⟨rfl, rfl, rfl, rfl, rfl, rfl, rfl, rfl, rfl⟩
    | (split
       · exact .quiet (quiet_refuse hi)
       · exact .quiet ⟨rfl, rfl, rfl, rfl, rfl, rfl, rfl, rfl, rfl⟩)

/-! ## A step -/

/-- What a step without reset does. -/
inductive StepEffect (s t : State) : Prop
  /-- the operation in progress goes on -/
  | resumed : s.seq ≠ .idle → t = s.seqStep → StepEffect s t
  /-- nothing is presented -/
  | waited : s.seq = .idle → s.port = [] → t = s → StepEffect s t
  /-- the next operation is accepted -/
  | accepted (h : HostWord) (rest : List PortInput) : s.seq = .idle → s.port = .op h :: rest →
      HostEffect h { s with port := rest } t → StepEffect s t

/-- A legal sequencer's step is the exec of the word it holds, or one of INIT's own steps. -/
theorem resumeStep_of_legal {s : State} (hb : s.seq ≠ .idle) (hl : s.seq.legal s.cstate) :
    resumeStep s = .next s.seqStep := by
  unfold resumeStep
  cases hs : s.seq with
  | idle => exact absurd hs hb
  | busy op k =>
    rw [hs] at hl
    cases hcm : Seq.cmd? (.busy op k) with
    | none =>
      obtain ⟨rfl, hk⟩ := cmd?_none_of_legal hl hcm
      have hf : Seq.fetchWord (.busy .init k) = none := by simp only [Seq.fetchWord, hcm, Option.map_none]
      have hint : (Seq.busy .init k).internal = true := by simpa [Seq.internal] using hk
      simp [hf, hint, seqStep_of_none (s := s) (by rw [hs]; exact hcm)]
    | some c =>
      have hf : Seq.fetchWord (.busy op k) = some c.word := by
        cases op with
        | wire w => simp [Seq.legal] at hl
        | _ => simp only [Seq.fetchWord, hcm, Option.map_some]
      simp [hf, runDecoded, seqStep_of_cmd (s := s) (by rw [hs]; exact hcm)]

theorem step_effect {s : State} (hl : s.seq.legal s.cstate) (hr : noReset s) : ∃ t, step s = .next t ∧ StepEffect s t := by
  by_cases hi : s.seq = .idle
  · rw [step_of_idle hi hr]
    unfold acceptStep
    split
    · next h rest hp =>
      obtain ⟨t, he, hcase⟩ := exec_host_effect h (s := { s with port := rest }) hi
      exact ⟨t, he, .accepted h rest hi hp hcase⟩
    · next hp => exact ⟨s, rfl, .waited hi hp rfl⟩
    · next rest hp => exact absurd hp (hr rest)
  · rw [step_of_busy hi hr]
    exact ⟨s.seqStep, resumeStep_of_legal hi hl, .resumed hi rfl⟩

/-! ## Runs of the sequencer -/

/-- What every step of the sequencer keeps, a run keeps. -/
theorem runSeq_keeps {P : State → Prop} (hP : ∀ s, P s → P s.seqStep) : ∀ (n : Nat) (s : State), P s → P (State.runSeq n s)
  | 0, _, h => h
  | n + 1, s, h => runSeq_keeps hP n _ (hP s h)

theorem runSeq_succ (n : Nat) (s : State) : State.runSeq (n + 1) s = (State.runSeq n s).seqStep := by
  rw [runSeq_add n 1]
  rfl

/-- A state that a step does not change stays as it is. -/
theorem runSeq_fixed {s : State} (h : s.seqStep = s) (n : Nat) : State.runSeq n s = s := by
  induction n with
  | zero => rfl
  | succ n ih => simp [State.runSeq, h, ih]

theorem present_present (s : State) (c : Cmd) : (s.present c).present c = s.present c := by cases c <;> rfl

/-- A request that waits does nothing more until its transfer returns. -/
theorem seqStep_present {s : State} {c : Cmd} (hc : s.seq.cmd? = some c) (hx : s.transport.xfers = []) :
    (s.present c).seqStep = s.present c := by
  rw [seqStep_of_cmd (c := c) (by simpa using hc), issue_waiting (by simpa using hx), present_present]

end Sys2Proof.Machine
end

