-- ==== Sys2Proof/Laws/PerInstr.lean ====
section
/-! SUPPORT. Statements made for every instruction, one lemma for each constructor. `TableRow`: the code of the instruction
matches its row of the opcode table, the row's match value written out here (R66, R75). -/

namespace Sys2Proof.Laws

/-- The format and match value of the instruction's row: `HOST4` rows fix the four op bits, `WIRE32` rows all 32. -/
def tableRow : Instr → Bool × Nat
  | .init => (false, 0x1)
  | .changeMode _ => (false, 0x2)
  | .readTemp => (false, 0x3)
  | .readAcc _ => (false, 0x4)
  | .readStatus => (false, 0x5)
  | .crcCompute _ => (false, 0x8)
  | .crcCheck _ => (false, 0x9)
  | .encodeFrame _ => (false, 0xA)
  | .assembleFrame _ => (false, 0xB)
  | .decodeFrame _ => (false, 0xC)
  | .convAccel _ _ => (false, 0xD)
  | .convTemp _ => (false, 0xE)
  | .sens _ => (false, 0xF)
  | .reserved0 => (false, 0x0)
  | .reserved6 => (false, 0x6)
  | .reserved7 => (false, 0x7)
  | .cmdReadAccX => (true, 0x040000F7)
  | .cmdReadAccY => (true, 0x080000FD)
  | .cmdReadAccZ => (true, 0x0C0000FB)
  | .cmdReadTemp => (true, 0x140000EF)
  | .cmdReadStatus => (true, 0x180000E5)
  | .cmdReadMode => (true, 0x340000DF)
  | .cmdWriteMode1 => (true, 0xB400001F)
  | .cmdWriteMode2 => (true, 0xB4000102)
  | .cmdWriteMode3 => (true, 0xB4000225)
  | .cmdWriteMode4 => (true, 0xB4000338)
  | .cmdReadWhoami => (true, 0x40000091)
  | .cmdSwReset => (true, 0xB4002098)

/-- The code has the row's format and its fixed bits; the masks 0xF and 0xFFFFFFFF cover all bits of the two formats. -/
def TableRow.Statement (i : Instr) : Prop :=
  match encode i with
  | .host h => (tableRow i).1 = false ∧ h.op.toNat = (tableRow i).2
  | .wire w => (tableRow i).1 = true ∧ w.toNat = (tableRow i).2

theorem TableRow.init : TableRow.Statement (.init) := ⟨rfl, rfl⟩

theorem TableRow.changeMode (sel : Word) : TableRow.Statement (.changeMode sel) := ⟨rfl, rfl⟩

theorem TableRow.readTemp : TableRow.Statement (.readTemp) := ⟨rfl, rfl⟩

theorem TableRow.readAcc (axis : Word) : TableRow.Statement (.readAcc axis) := ⟨rfl, rfl⟩

theorem TableRow.readStatus : TableRow.Statement (.readStatus) := ⟨rfl, rfl⟩

theorem TableRow.crcCompute (a : Word) : TableRow.Statement (.crcCompute a) := ⟨rfl, rfl⟩

theorem TableRow.crcCheck (a : Word) : TableRow.Statement (.crcCheck a) := ⟨rfl, rfl⟩

theorem TableRow.encodeFrame (a : Word) : TableRow.Statement (.encodeFrame a) := ⟨rfl, rfl⟩

theorem TableRow.assembleFrame (a : Word) : TableRow.Statement (.assembleFrame a) := ⟨rfl, rfl⟩

theorem TableRow.decodeFrame (a : Word) : TableRow.Statement (.decodeFrame a) := ⟨rfl, rfl⟩

theorem TableRow.convAccel (a b : Word) : TableRow.Statement (.convAccel a b) := ⟨rfl, rfl⟩

theorem TableRow.convTemp (a : Word) : TableRow.Statement (.convTemp a) := ⟨rfl, rfl⟩

theorem TableRow.sens (sel : Word) : TableRow.Statement (.sens sel) := ⟨rfl, rfl⟩

theorem TableRow.reserved0 : TableRow.Statement (.reserved0) := ⟨rfl, rfl⟩

theorem TableRow.reserved6 : TableRow.Statement (.reserved6) := ⟨rfl, rfl⟩

theorem TableRow.reserved7 : TableRow.Statement (.reserved7) := ⟨rfl, rfl⟩

theorem TableRow.cmdReadAccX : TableRow.Statement (.cmdReadAccX) := ⟨rfl, rfl⟩

theorem TableRow.cmdReadAccY : TableRow.Statement (.cmdReadAccY) := ⟨rfl, rfl⟩

theorem TableRow.cmdReadAccZ : TableRow.Statement (.cmdReadAccZ) := ⟨rfl, rfl⟩

theorem TableRow.cmdReadTemp : TableRow.Statement (.cmdReadTemp) := ⟨rfl, rfl⟩

theorem TableRow.cmdReadStatus : TableRow.Statement (.cmdReadStatus) := ⟨rfl, rfl⟩

theorem TableRow.cmdReadMode : TableRow.Statement (.cmdReadMode) := ⟨rfl, rfl⟩

theorem TableRow.cmdWriteMode1 : TableRow.Statement (.cmdWriteMode1) := ⟨rfl, rfl⟩

theorem TableRow.cmdWriteMode2 : TableRow.Statement (.cmdWriteMode2) := ⟨rfl, rfl⟩

theorem TableRow.cmdWriteMode3 : TableRow.Statement (.cmdWriteMode3) := ⟨rfl, rfl⟩

theorem TableRow.cmdWriteMode4 : TableRow.Statement (.cmdWriteMode4) := ⟨rfl, rfl⟩

theorem TableRow.cmdReadWhoami : TableRow.Statement (.cmdReadWhoami) := ⟨rfl, rfl⟩

theorem TableRow.cmdSwReset : TableRow.Statement (.cmdSwReset) := ⟨rfl, rfl⟩

end Sys2Proof.Laws
end

