-- ==== Sys2Proof/Tests/Slice0.lean ====
section
/-! SUPPORT. Tests with expected results from the spec (95_test_vectors.md unless a comment names a rule), the smoke test of
`Instr.wf`, the decoding of words written out from R66 and R75, and a witness for the hypotheses of every obligation. -/

namespace Sys2Proof.Tests

open Sys2Proof.Machine

set_option Elab.async false

/-! ## Helpers -/

/-- A received frame as the transport's answer. -/
def rx (b0 b1 b2 b3 : Byte) : Option (List Byte) := some [b0, b1, b2, b3]

/-- An idle core in a controller state, with a mode and the transfers the transport has ready. -/
def core (c : CState) (m : Mode) (xs : List (Option (List Byte))) : State :=
  { State.reset with
    cstate := c, handle := if c = .uninit then none else some 1, mode := m, sens := sensOf m, transport := ⟨[], [], xs⟩ }

/-- A core in OPERATIONAL, Mode3. -/
def ready (xs : List (Option (List Byte))) : State := core .operational .mode3 xs

/-- A core after reset whose transport opens, configures and answers. -/
def fresh (xs : List (Option (List Byte))) : State := { State.reset with transport := ⟨[some 1], [true], xs⟩ }

/-- A core with an operation in progress. -/
def during (q : Machine.Seq) (c : CState) (xs : List (Option (List Byte))) : State :=
  { core c .mode3 xs with seq := q }

/-- What a test looks at in the state an instruction leaves. -/
def after (o : Host.Outcome State Fault Refusal) {α : Type} (f : State → α) : Option α :=
  match o with
  | .next t => some (f t)
  | .fault _ => none
  | .refused _ => none

/-- Outcome and value. -/
def result (o : Host.Outcome State Fault Refusal) : Option (OutcomeCode × Option Value) :=
  after o (fun t => (t.result.outcome, t.result.value))

/-- Outcome and diagnostic. -/
def diagnosis (o : Host.Outcome State Fault Refusal) : Option (OutcomeCode × Diag) :=
  after o (fun t => (t.result.outcome, t.result.diag))

/-- The controller registers as the status outputs show them (R78), and the outcome. -/
def status (o : Host.Outcome State Fault Refusal) : Option (BitVec 2 × BitVec 3 × Word × OutcomeCode) :=
  after o (fun t => (t.cstateOut, t.modeOut, t.sensOut, t.result.outcome))

/-- The frames sent. -/
def sent (o : Host.Outcome State Fault Refusal) : Option (List Frame) := after o (fun t => sentFrames t.trace)

/-! ## Well-formedness: an ill-formed term for each check -/

theorem test_wf_refuses_ignored_low_bits : Instr.wf (.crcCompute 0x140000AB#32) = false := by decide

theorem test_wf_refuses_ignored_high_bits_accel : Instr.wf (.convAccel 0x00011594#32 5400#32) = false := by decide

theorem test_wf_refuses_ignored_high_bits_temp : Instr.wf (.convTemp 0x800015C5#32) = false := by decide

theorem test_wf_accepts_any_selector : Instr.wf (.changeMode 0xFFFFFFFF#32) = true ∧ Instr.wf (.readAcc 7#32) = true := by
  decide

/-! ## Decoding: the sixteen op codes of R75 and the twelve words of R66, written out bit by bit -/

theorem test_decode_controller_ops :
    decode (.host ⟨0b0001#4, 5#32, 6#32⟩) = .ok .init ∧
    decode (.host ⟨0b0010#4, 9#32, 6#32⟩) = .ok (.changeMode 9#32) ∧
    decode (.host ⟨0b0011#4, 5#32, 6#32⟩) = .ok .readTemp ∧
    decode (.host ⟨0b0100#4, 7#32, 6#32⟩) = .ok (.readAcc 7#32) ∧
    decode (.host ⟨0b0101#4, 5#32, 6#32⟩) = .ok .readStatus := ⟨rfl, rfl, rfl, rfl, rfl⟩

theorem test_decode_reserved_ops :
    decode (.host ⟨0b0000#4, 5#32, 6#32⟩) = .ok .reserved0 ∧
    decode (.host ⟨0b0110#4, 5#32, 6#32⟩) = .ok .reserved6 ∧
    decode (.host ⟨0b0111#4, 5#32, 6#32⟩) = .ok .reserved7 := ⟨rfl, rfl, rfl⟩

theorem test_decode_crc_ops :
    decode (.host ⟨0b1000#4, 0x140000AB#32, 6#32⟩) = .ok (.crcCompute 0x14000000#32) ∧
    decode (.host ⟨0b1001#4, 0x140000AB#32, 6#32⟩) = .ok (.crcCheck 0x140000AB#32) := ⟨rfl, rfl⟩

theorem test_decode_codec_ops :
    decode (.host ⟨0b1010#4, 0xB4000225#32, 6#32⟩) = .ok (.encodeFrame 0xB4000225#32) ∧
    decode (.host ⟨0b1011#4, 0xB4000225#32, 6#32⟩) = .ok (.assembleFrame 0xB4000225#32) ∧
    decode (.host ⟨0b1100#4, 0x1515C5E9#32, 6#32⟩) = .ok (.decodeFrame 0x1515C5E9#32) := ⟨rfl, rfl, rfl⟩

theorem test_decode_converter_ops :
    decode (.host ⟨0b1101#4, 0xABCD1594#32, 0x00001518#32⟩) = .ok (.convAccel 0x1594#32 5400#32) ∧
    decode (.host ⟨0b1110#4, 0xABCD15C5#32, 6#32⟩) = .ok (.convTemp 0x15C5#32) ∧
    decode (.host ⟨0b1111#4, 2#32, 6#32⟩) = .ok (.sens 2#32) := ⟨rfl, rfl, rfl⟩

theorem test_decode_read_words :
    decode (.wire 0b000001_00_0000000000000000_11110111#32) = .ok .cmdReadAccX ∧
    decode (.wire 0b000010_00_0000000000000000_11111101#32) = .ok .cmdReadAccY ∧
    decode (.wire 0b000011_00_0000000000000000_11111011#32) = .ok .cmdReadAccZ ∧
    decode (.wire 0b000101_00_0000000000000000_11101111#32) = .ok .cmdReadTemp ∧
    decode (.wire 0b000110_00_0000000000000000_11100101#32) = .ok .cmdReadStatus ∧
    decode (.wire 0b001101_00_0000000000000000_11011111#32) = .ok .cmdReadMode ∧
    decode (.wire 0b010000_00_0000000000000000_10010001#32) = .ok .cmdReadWhoami :=
  ⟨rfl, rfl, rfl, rfl, rfl, rfl, rfl⟩

theorem test_decode_write_words :
    decode (.wire 0b101101_00_0000000000000000_00011111#32) = .ok .cmdWriteMode1 ∧
    decode (.wire 0b101101_00_0000000000000001_00000010#32) = .ok .cmdWriteMode2 ∧
    decode (.wire 0b101101_00_0000000000000010_00100101#32) = .ok .cmdWriteMode3 ∧
    decode (.wire 0b101101_00_0000000000000011_00111000#32) = .ok .cmdWriteMode4 ∧
    decode (.wire 0b101101_00_0000000000100000_10011000#32) = .ok .cmdSwReset := ⟨rfl, rfl, rfl, rfl, rfl⟩

/-- A word outside the table is rejected by name (R65), one with a nonzero reserved field too (R62). -/
theorem test_decode_refuses_other_words :
    decode (.wire 0x12345678#32) = .error (.noSuchCommand 0x12345678#32) ∧
    decode (.wire 0x050000F7#32) = .error (.noSuchCommand 0x050000F7#32) := ⟨rfl, rfl⟩

theorem test_decodeTableWord :
    decodeTableWord 8 0xE = some (.convTemp 0#32) ∧ decodeTableWord 4 0x0 = some .reserved0 ∧
    decodeTableWord 32 0xB4002098 = some .cmdSwReset ∧ decodeTableWord 8 0x10 = none ∧ decodeTableWord 16 0x1 = none := by
  decide

theorem test_withFetchWord_host : result (step (State.reset.withFetchWord 8 0xE)) =
    some (.ok, some (.temp (-27315) 0xC3889333#32)) := by decide +kernel

/-- The word is sent, whatever stands in front of it at the port. -/
theorem test_withFetchWord_wire :
    sent (step (State.withFetchWord { fresh [rx 0 0 0 0] with port := [.reset] } 32 0x34000000DF)) = some [] ∧
    sent (step (State.withFetchWord { fresh [rx 0 0 0 0] with port := [.reset] } 32 0x340000DF)) =
      some [⟨0x34#8, 0x00#8, 0x00#8, 0xDF#8⟩] := by decide +kernel

/-! ## The CRC-8 Validator (sections 2.2 to 2.5) -/

/-- The four cases of the step and the edges. -/
theorem test_crcStep :
    [(0x00#8, false), (0x00#8, true), (0x80#8, false), (0x80#8, true), (0xFF#8, false), (0xFF#8, true), (0x7F#8, true),
      (0x7F#8, false)].map (fun p => (crcStep ⟨p.1, 0xAA#8, true⟩ p.2).crc) =
    [0x00#8, 0x1D#8, 0x1D#8, 0x00#8, 0xE3#8, 0xFE#8, 0xE3#8, 0xFE#8] := by decide

/-- Where the rejected reading differs (section 2.5). -/
theorem test_crcCompute_adjacent_ones :
    crcCompute 0x0C#8 0#8 0#8 = 0xFB#8 ∧ crcCompute 0x18#8 0#8 0#8 = 0xE5#8 ∧ crcCompute 0xFF#8 0xFF#8 0xFF#8 = 0x7A#8 ∧
    crcCompute 0x1B#8 0x00#8 0x04#8 = 0x1D#8 := by decide +kernel

/-- P4 step 2: bits 7:0 of the operand are ignored. -/
theorem test_crcCompute : result (exec (.crcCompute 0x14000000#32) State.reset) =
    some (.ok, some (.checksum 0xEF#8)) := by decide +kernel

/-- The uncomplemented register is not the checksum. -/
theorem test_crcCheck_fails : result (exec (.crcCheck 0x04000008#32) State.reset) = some (.fail, none) := by
  decide +kernel

/-- V50. -/
theorem test_crcCheck_in_faulted :
    status (exec (.crcCheck 0x040000F7#32) (core .faulted .mode3 [])) = some (3#2, 3#3, 5400#32, .ok) := by decide +kernel

/-! ## The Frame Codec (section 3) -/

theorem test_encode : result (exec (.encodeFrame 0x12345678#32) State.reset) =
    some (.ok, some (.bytes ⟨0x12#8, 0x34#8, 0x56#8, 0x78#8⟩)) := by decide

theorem test_assemble : result (exec (.assembleFrame 0x410051DD#32) State.reset) =
    some (.ok, some (.word 0x410051DD#32)) := by decide

theorem test_decode : result (exec (.decodeFrame 0x43FB51DE#32) State.reset) =
    some (.ok, some (.fields 3#2 0xFB51#16 0xDE#8)) := by decide

theorem test_isValid :
    isValid (frameOf 0x1515C5E9#32) = true ∧ isValid (frameOf 0x1615C565#32) = false ∧
    isValid (frameOf 0x1715C5EA#32) = false ∧ isValid (frameOf 0x1515C5E8#32) = false ∧
    isValid (frameOf 0x1415C566#32) = true := by decide +kernel

/-! ## The Unit Converter (section 4) -/

theorem test_sens : result (exec (.sens 2#32) State.reset) = some (.ok, some (.divisor 1350#32)) := by decide

theorem test_sens_unrecognized : result (exec (.sens 0xFFFFFFFF#32) State.reset) =
    some (.fail, some (.divisor 2700#32)) := by decide

/-- A raw value with bit 15 set is not negative (R111). -/
theorem test_convAccel : result (exec (.convAccel 0xFB00#32 5400#32) State.reset) =
    some (.ok, some (.acc (8032 / 675) 0x413E635E#32)) := by decide +kernel

/-- A divisor of −5400. -/
theorem test_convAccel_negative_divisor : result (exec (.convAccel 0xFFFF#32 0xFFFFEAE8#32) State.reset) =
    some (.ok, some (.acc (-4369 / 360) 0xC1422D83#32)) := by decide +kernel

theorem test_convTemp_negative : result (exec (.convTemp 0x13EF#32) State.reset) =
    some (.ok, some (.temp (-315) 0xC049999A#32)) := by decide +kernel

/-- The first input on which an all-binary32 pipeline differs (R117, U6). -/
theorem test_convTemp_exact_and_binary32 :
    tempWith .exact 0x2C8F#16 = 33039 ∧ tempWith .binary32 0x2C8F#16 = 33040 := by decide +kernel

/-- The examples of R115. -/
theorem test_rhaz : [(5 / 2 : Rat), -5 / 2, 12 / 5, -12 / 5, -13 / 5, 2 / 5].map rhaz = [3, -3, 2, -2, -3, 0] := by
  decide +kernel

/-! ## The Device Controller (section 5) -/

/-- V2: a wrong identity ends OPERATIONAL with FAIL. -/
theorem test_init_wrong_identity :
    status (exec .init (fresh [rx 0 0 0 0xF1, rx 0xB5 0 2 0xAA, rx 0x35 0 2 0x6A, rx 0x1B 0 0x12 0x9E, rx 0x19 0 0 0x6A,
      rx 0x19 0 0 0x6A, rx 0x19 0 0 0x6A, rx 0x41 0x00 0x50 0xC0, rx 0x41 0x00 0x51 0xDD])) =
    some (2#2, 3#3, 5400#32, .fail) := by decide +kernel

/-- V8: a failed ninth transfer faults although the identity was right. -/
theorem test_init_last_transfer_fails :
    status (exec .init (fresh [rx 0 0 0 0, rx 0 0 0 0, rx 0 0 0 0, rx 0 0 0 0, rx 0 0 0 0, rx 0 0 0 0, rx 0 0 0 0,
      rx 0x41 0x00 0x51 0xDD, none])) = some (3#2, 3#3, 5400#32, .fault) := by decide +kernel

/-- V14: the previous mode is lost. -/
theorem test_changeMode_unrecognized :
    status (exec (.changeMode 0#32) (core .operational .mode2 [])) = some (2#2, 1#3, 2700#32, .fail) := by decide

/-- V16. -/
theorem test_changeMode_in_faulted :
    status (exec (.changeMode 2#32) (core .faulted .mode3 [])) = some (3#2, 3#3, 5400#32, .refused) := by decide

/-- V18: the first two responses are not examined. -/
theorem test_readTemp : result (exec .readTemp (ready [rx 0xFF 0xFF 0xFF 0xFF, rx 0x17 0x15 0xC5 0xEA,
      rx 0x15 0x13 0xEF 0x09])) = some (.ok, some (.temp (-315) 0xC049999A#32)) := by decide +kernel

/-- V23: the second transfer fails, the third is not issued. -/
theorem test_readTemp_fault : sent (exec .readTemp (ready [rx 0 0 0 0, none, rx 0x15 0x15 0xC5 0xE9])) =
    some [⟨0x14#8, 0#8, 0#8, 0xEF#8⟩, ⟨0x14#8, 0#8, 0#8, 0xEF#8⟩] := by decide +kernel

/-- V25: the divisor is the core's own. -/
theorem test_readAcc : result (exec (.readAcc 0#32) (core .operational .mode2 [rx 0x05 0x15 0x94 0x32])) =
    some (.ok, some (.acc (2762 / 675) 0x4082F073#32)) := by decide +kernel

/-- V27: axis Z sends its own word. -/
theorem test_readAcc_z_word : sent (exec (.readAcc 2#32) (ready [rx 0x0D 0x15 0x18 0x84])) =
    some [⟨0x0C#8, 0#8, 0#8, 0xFB#8⟩] := by decide +kernel

/-- V40: the lowest of bits 1 and 4. -/
theorem test_readStatus_error : diagnosis (exec .readStatus (ready [rx 0x1B 0x00 0x12 0x9E])) =
    some (.fail, .bit 1#4) := by decide +kernel

/-- V38: the checksum is not consulted. -/
theorem test_readStatus_bad_crc : diagnosis (exec .readStatus (ready [rx 0x19 0x00 0x00 0x00])) = some (.ok, .noBit) := by
  decide +kernel

/-- V41 to V46. -/
theorem test_errorScan :
    [0x0001#16, 0x0000#16, 0x0200#16, 0x0400#16, 0x8000#16, 0xFFFF#16].map errorScan =
    [.noBit, .noBit, .bit 9#4, .bit 10#4, .bit 15#4, .bit 1#4] := by decide

/-- V49. -/
theorem test_reserved :
    status (exec .reserved0 (core .faulted .mode1 [])) = some (3#2, 1#3, 2700#32, .refused) ∧
    status (exec .reserved6 (ready [])) = some (2#2, 3#3, 5400#32, .refused) ∧
    status (exec .reserved7 State.reset) = some (0#2, 3#3, 5400#32, .refused) := by decide

/-! ## Wire commands (44_wire_commands.md) -/

/-- R160, R161, R162: the examples of the rules, at the step of READ_ACC that issues the word. -/
theorem test_cmdReadAcc :
    result (exec .cmdReadAccX (during (.busy (.readAcc .x) 0) .operational [rx 0x05 0x15 0x94 0x32])) =
      some (.ok, some (.acc (1381 / 1350) 0x3F82F073#32)) ∧
    result (exec .cmdReadAccY (during (.busy (.readAcc .y) 0) .operational [rx 0x09 0x00 0x00 0x72])) =
      some (.ok, some (.acc 0 0#32)) ∧
    result (exec .cmdReadAccZ (during (.busy (.readAcc .z) 0) .operational [rx 0x0D 0x15 0x18 0x84])) =
      some (.ok, some (.acc 1 0x3F800000#32)) := by decide +kernel

/-- R163: the third request of READ_TEMP is examined, the first is not. -/
theorem test_cmdReadTemp :
    result (exec .cmdReadTemp (during (.busy .readTemp 2) .operational [rx 0x15 0x15 0xC5 0xE9])) =
      some (.ok, some (.temp 2172 0x41ADC28F#32)) ∧
    after (exec .cmdReadTemp (during (.busy .readTemp 0) .operational [rx 0x15 0x15 0xC5 0xE9]))
      (fun t => (t.seq, t.result.outcome)) = some (.busy .readTemp 1, .none) := by decide +kernel

/-- R164. -/
theorem test_cmdReadStatus :
    diagnosis (exec .cmdReadStatus (during (.busy .readStatus 0) .operational [rx 0x1B 0x00 0x04 0x1D])) =
      some (.fail, .bit 2#4) := by decide +kernel

/-- R165: whatever is received, no effect but the advance. -/
theorem test_cmdReadMode :
    after (exec .cmdReadMode (during (.busy .init 4) .initializing [rx 0xFF 0xFF 0xFF 0xFF])) (fun t => (t.seq, t.cstate)) =
      some (.busy .init 5, .initializing) := by decide +kernel

/-- R168: the mode and its divisor are recorded; R226: the settle delay is that of a mode change. -/
theorem test_cmdWriteMode3 :
    after (exec .cmdWriteMode3 { during (.busy .init 3) .initializing [rx 0 0 0 0xF1] with mode := .mode2, sens := 1350#32 })
      (fun t => (t.mode, t.sens, t.trace.getLast?)) = some (.mode3, 5400#32, some (.delay 5)) := by decide +kernel

/-- R170: request 8 decides the identity, request 7 does not. -/
theorem test_cmdReadWhoami :
    after (exec .cmdReadWhoami (during (.busy .init 10) .initializing [rx 0x41 0x00 0x51 0xDD])) (fun t => t.flags.idOk) =
      some true ∧
    after (exec .cmdReadWhoami (during (.busy .init 9) .initializing [rx 0x41 0x00 0x51 0xDD])) (fun t => t.flags.idOk) =
      some false := by decide +kernel

/-- R166, R167, R169, R171, R172: on its own each is one transfer of its bytes and changes no mode. -/
theorem test_commands_without_emitter :
    [Instr.cmdWriteMode1, .cmdWriteMode2, .cmdWriteMode4, .cmdSwReset].map (fun i =>
      after (exec i (core .operational .mode2 [rx 0 0 0 0])) (fun t => (sentFrames t.trace, t.mode, t.seq))) =
    [some ([⟨0xB4#8, 0#8, 0#8, 0x1F#8⟩], .mode2, .idle), some ([⟨0xB4#8, 0#8, 1#8, 0x02#8⟩], .mode2, .idle),
      some ([⟨0xB4#8, 0#8, 3#8, 0x38#8⟩], .mode2, .idle), some ([⟨0xB4#8, 0#8, 0x20#8, 0x98#8⟩], .mode2, .idle)] := by
  decide +kernel

/-! ## The step -/

/-- P3 step 8: reset leaves FAULTED. -/
theorem test_step_reset :
    status (step { core .faulted .mode2 [] with port := [.reset] }) = some (0#2, 3#3, 5400#32, .none) := by decide

/-- R230: READ_STATUS whose transfer has not returned waits; the answer lets it end. -/
theorem test_step_resumes :
    after (exec .readStatus (ready [])) (fun t => (t.seq, t.result.outcome)) = some (.busy .readStatus 0, .none) ∧
    diagnosis (step (during (.busy .readStatus 0) .operational [rx 0x1B 0x00 0x04 0x1D])) = some (.fail, .bit 2#4) := by
  decide +kernel

/-! ## Witnesses: a concrete state and operands that meet the hypotheses of each statement, one for each of its clauses -/

/-- A response with a good checksum and the normal status (V18), and one with the error status (V40). -/
def good : Frame := ⟨0x15#8, 0x15#8, 0xC5#8, 0xE9#8⟩

/-- V40. -/
def bad : Frame := ⟨0x1B#8, 0x00#8, 0x12#8, 0x9E#8⟩

theorem zero_reserved : rsField 0#32 = 0#2 := by decide

theorem not_initializing {c : CState} (h : c ≠ .initializing) : Seq.legal c .idle := h

theorem noReset_of_empty {s : State} (h : s.port = []) : noReset s := fun rest hr => by simp [h] at hr

theorem noReset_of_op {s : State} {h : HostWord} {rest : List PortInput} (hp : s.port = .op h :: rest) : noReset s :=
  fun rest' hr => by simp [hp] at hr

theorem witness_DecodeInvertsEncode :
    Instr.wf (.convAccel 0xFFFF#32 0x80000000#32) = true ∧
    decode (.host ⟨0x8#4, 0xFFFFFFFF#32, 0#32⟩) = .ok (.crcCompute 0xFFFFFF00#32) ∧
    decode (.wire 0xB4002098#32) = .ok .cmdSwReset := by decide

theorem witness_CommandWordsAreValidRequests : Cmd.word .readAccX = Cmd.word .readAccX := rfl

theorem witness_StepRunsThePresentedOperation :
    let s := { ready [] with port := [.op ⟨0x4#4, 2#32, 0#32⟩] }
    s.seq = .idle ∧ s.port = .op ⟨0x4#4, 2#32, 0#32⟩ :: [] ∧ decode (.host ⟨0x4#4, 2#32, 0#32⟩) = .ok (.readAcc 2#32) := by
  decide

/-- The first and the last step of INIT that issue a command, and the one step of READ_ACC. -/
theorem witness_StepRunsTheSequencersCommand :
    ∀ p ∈ [(SeqOp.init, CState.initializing, 3, 0xB4000225#32, Instr.cmdWriteMode3),
      (.init, .initializing, 11, 0x140000EF#32, .cmdReadTemp), (.readAcc .y, .operational, 0, 0x080000FD#32, .cmdReadAccY)],
    noReset (during (.busy p.1 p.2.2.1) p.2.1 []) ∧
      (during (.busy p.1 p.2.2.1) p.2.1 []).seq.fetchWord = some p.2.2.2.1 ∧ decode (.wire p.2.2.2.1) = .ok p.2.2.2.2 := by
  simp only [List.forall_mem_cons]
  exact ⟨⟨noReset_of_empty rfl, rfl, rfl⟩, ⟨noReset_of_empty rfl, rfl, rfl⟩, ⟨noReset_of_empty rfl, rfl, rfl⟩,
    fun _ h => by simp at h⟩

theorem witness_StepRunsInitsOwnSteps_open :
    let s (a : Option Handle) := { State.reset with seq := .busy .init 0, transport := ⟨[a], [], []⟩ }
    (noReset (s (some 1)) ∧ (s (some 1)).seq = .busy .init 0 ∧ (s (some 1)).transport.opens = some 1 :: []) ∧
    (noReset (s none) ∧ (s none).seq = .busy .init 0 ∧ (s none).transport.opens = none :: []) :=
  ⟨⟨noReset_of_empty rfl, rfl, rfl⟩, ⟨noReset_of_empty rfl, rfl, rfl⟩⟩

theorem witness_StepRunsInitsOwnSteps_configure :
    let s (ok : Bool) := { during (.busy .init 1) .initializing [] with transport := ⟨[], [ok], []⟩ }
    (noReset (s true) ∧ (s true).seq = .busy .init 1 ∧ (s true).transport.configures = true :: []) ∧
    (noReset (s false) ∧ (s false).seq = .busy .init 1 ∧ (s false).transport.configures = false :: []) :=
  ⟨⟨noReset_of_empty rfl, rfl, rfl⟩, ⟨noReset_of_empty rfl, rfl, rfl⟩⟩

theorem witness_StepRunsInitsOwnSteps_delay :
    noReset (during (.busy .init 2) .initializing []) ∧ (during (.busy .init 2) .initializing []).seq = .busy .init 2 :=
  ⟨noReset_of_empty rfl, rfl⟩

theorem witness_ResetHasPriorityAndIdleWaits :
    ({ during (.busy .readTemp 1) .operational [] with port := [.reset] } : State).port = .reset :: [] ∧
    State.reset.seq = .idle ∧ State.reset.port = [] := by decide

/-- The one hypothesis of CrcComputeDeliversThePolynomialChecksum, EncodeDeliversBytesMostSignificantFirst,
AssembleJoinsBytesMostSignificantFirst, DecodeExtractsStatusDataAndTrailer, ConvTempRoundsTheExactTemperature: an idle state. -/
theorem witness_idle_state : State.reset.seq = .idle ∧ (core .faulted .mode1 []).seq = .idle := by decide

theorem witness_CrcCheckComparesTheFourthByte :
    State.reset.seq = .idle ∧ polynomialCrc 0x040000F7#32 = (0x040000F7#32).extractLsb' 0 8 ∧
    polynomialCrc 0x04000008#32 ≠ (0x04000008#32).extractLsb' 0 8 := by decide +kernel

theorem witness_ReferenceFramesAreValid :
    0x040000F7#32 ∈ [0x040000F7#32, 0x140000EF#32, 0x40000091#32] ∧ State.reset.seq = .idle := by decide

/-- Bits 0 and 31, and the pairs (8, 9) and (30, 31). -/
theorem witness_ChecksumDetectsSingleAndDoubleBitErrors :
    crcCheck (frameOf 0x040000F7#32) = true ∧ 0 < 32 ∧ 31 < 32 ∧ (8 ≤ 8 ∧ 8 < 9 ∧ 9 < 32) ∧ (8 ≤ 30 ∧ 30 < 31 ∧ 31 < 32) := by
  decide +kernel

/-- A valid response and one that is not, for the first and the last command. -/
theorem witness_ResponseIsValidOnGoodCrcAndStatus :
    (ready [answerOf good]).transport.xfers = answerOf good :: [] ∧
    (ready [answerOf bad]).transport.xfers = answerOf bad :: [] ∧ isValid good = true ∧ isValid bad = false := by
  decide +kernel

theorem witness_SensDeliversTheDivisorTable :
    State.reset.seq = .idle ∧ (0#32).toNat = 0 ∧ 4 < (5#32).toNat ∧ 4 < (0xFFFFFFFF#32).toNat := by decide

theorem witness_ConvAccelDividesExactly :
    State.reset.seq = .idle ∧ 1#32 ≠ 0#32 ∧ 0xFFFFFFFF#32 ≠ 0#32 ∧ 0x80000000#32 ≠ 0#32 ∧ 0#32 = 0#32 := by decide

theorem witness_ConvertedValuesCarryTheirImages : (ready []).seq = .idle ∧ 0xFFFFFFFF#32 ≠ 0#32 := by decide

/-- A tie: 2 is as near to 5/2 as 3 is. -/
theorem witness_RhazRoundsHalfAwayFromZero :
    rhaz (5 / 2) = 3 ∧ |(5 / 2 : Rat) - ((2 : Int) : Rat)| = |(5 / 2 : Rat) - ((3 : Int) : Rat)| := by
  refine ⟨by decide +kernel, ?_⟩; norm_num [abs_of_pos, abs_of_neg]

theorem witness_TemperatureIsMonotoneWithoutTies :
    (1#16).toNat = (0#16).toNat + 1 ∧ (0xFFFF#16).toNat = (0xFFFE#16).toNat + 1 := by decide

/-- The ends of the range, and a tie between 1 and the value after it. -/
theorem witness_Binary32ImageIsNearest :
    (∀ q ∈ [(1 : Rat) / 2 ^ 126, -(2 ^ 128 - 2 ^ 104)], (1 : Rat) / 2 ^ 126 ≤ |q| ∧ |q| ≤ 2 ^ 128 - 2 ^ 104) ∧
    (0x3F800001#32).extractLsb' 23 8 ≠ 0xFF#8 ∧
    |f32Value 0x3F800001#32 - (1 + 1 / 2 ^ 24)| = |f32Value (rne32 (1 + 1 / 2 ^ 24)) - (1 + 1 / 2 ^ 24)| := by
  refine ⟨?_, by decide, by decide +kernel⟩
  intro q hq
  simp only [List.mem_cons, List.not_mem_nil, or_false] at hq
  obtain rfl | rfl := hq <;> norm_num [abs_of_pos, abs_of_neg]

theorem witness_UnitOperationsDependOnOperandsAlone :
    (∃ a, Instr.crcCheck 7#32 = .crcCheck a) ∧ (∃ a b, Instr.convAccel 7#32 0#32 = .convAccel a b) ∧
    (ready []).seq = .idle ∧ (core .faulted .mode1 []).seq = .idle := ⟨⟨_, rfl⟩, ⟨_, _, rfl⟩, rfl, rfl⟩

theorem witness_ReservedCodesAreRefused :
    (Instr.reserved7 = .reserved0 ∨ Instr.reserved7 = .reserved6 ∨ Instr.reserved7 = .reserved7) ∧
    (core .faulted .mode1 []).seq = .idle := by decide

theorem witness_StatefulOperationsAreRefusedOutsideTheirState :
    (∀ c ∈ [CState.operational, .faulted], (core c .mode3 []).seq = .idle ∧ (core c .mode3 []).cstate ≠ .uninit) ∧
    (∀ c ∈ [CState.uninit, .faulted], (core c .mode3 []).seq = .idle ∧ (core c .mode3 []).cstate ≠ .operational) := by
  decide

theorem witness_FaultedControllerRefusesAndSendsNothing :
    let s := { core .faulted .mode3 [] with port := [.reset] }
    s.seq = .idle ∧ s.cstate = .faulted ∧ s.port = .reset :: [] ∧
      (Instr.readAcc 3#32 = .init ∨ Instr.readAcc 3#32 = .changeMode 3#32 ∨ Instr.readAcc 3#32 = .readTemp ∨
        Instr.readAcc 3#32 = .readAcc 3#32 ∨ Instr.readAcc 3#32 = .readStatus) := by decide

theorem witness_SecondOperationInFlightHasNoMeaning :
    (during (.busy .readTemp 1) .operational []).seq ≠ .idle ∧ decode (.host ⟨0x0#4, 0#32, 0#32⟩) = .ok .reserved0 := by
  decide

theorem witness_InitRunsThePowerUpSequence :
    (fresh (List.replicate 9 (answerOf good))).seq = .idle ∧ (fresh (List.replicate 9 (answerOf good))).cstate = .uninit ∧
    (List.replicate 9 good).length = 9 ∧
    (fresh (List.replicate 9 (answerOf good))).transport =
      ⟨some 1 :: [], true :: [], (List.replicate 9 good).map answerOf ++ []⟩ := ⟨rfl, rfl, rfl, rfl⟩

theorem witness_InitStopsAtTheFirstFailedCall_open :
    let s := { State.reset with transport := ⟨[none], [], []⟩ }
    s.seq = .idle ∧ s.cstate = .uninit ∧ s.transport.opens = none :: [] := by decide

theorem witness_InitStopsAtTheFirstFailedCall_configure :
    let s := { State.reset with transport := ⟨[some 1], [false], []⟩ }
    s.seq = .idle ∧ s.cstate = .uninit ∧ s.transport.opens = some 1 :: [] ∧ s.transport.configures = false :: [] := by
  decide

/-- The first transfer fails, and the ninth, which returns three bytes. -/
theorem witness_InitStopsAtTheFirstFailedCall_transfer :
    ∀ p ∈ [(0, (none : Option (List Byte))), (8, some [0#8, 0#8, 0#8])],
    let s := fresh (List.replicate p.1 (answerOf good) ++ [p.2])
    s.seq = .idle ∧ s.cstate = .uninit ∧ (List.replicate p.1 good).length < 9 ∧ xferResult p.2 = none ∧
      s.transport = ⟨some 1 :: [], true :: [], (List.replicate p.1 good).map answerOf ++ p.2 :: []⟩ := by
  decide +kernel

theorem witness_ChangeModeRecordsARecognizedMode :
    (ready []).seq = .idle ∧ (ready []).cstate = .operational ∧
    (4#32, Mode.mode4, 5400#32) ∈ [(1#32, Mode.mode1, 2700#32), (2#32, Mode.mode2, 1350#32), (3#32, Mode.mode3, 5400#32),
      (4#32, Mode.mode4, 5400#32)] := by decide

theorem witness_ChangeModeFallsBackToMode1 :
    (ready []).seq = .idle ∧ (ready []).cstate = .operational ∧ (0#32).toNat = 0 ∧ 4 < (5#32).toNat ∧
      4 < (0xFFFFFFFF#32).toNat := by decide

/-- The third response valid, and not. -/
theorem witness_ReadTempReportsTheThirdResponse :
    (∀ r3 ∈ [good, bad], let s := ready [answerOf bad, answerOf bad, answerOf r3]
      s.seq = .idle ∧ s.cstate = .operational ∧
        s.transport.xfers = [answerOf bad, answerOf bad, answerOf r3] ++ []) ∧
    isValid good = true ∧ isValid bad = false := by decide +kernel

theorem witness_ReadAccScalesTheResponse :
    (∀ p ∈ [(0#32, Axis.x), (1#32, Axis.y), (2#32, Axis.z)], ∀ f ∈ [good, bad],
      let s := core .operational .mode2 [answerOf f]
      s.seq = .idle ∧ s.cstate = .operational ∧ s.sens = sensOf s.mode ∧
        p ∈ [(0#32, Axis.x), (1#32, Axis.y), (2#32, Axis.z)] ∧ s.transport.xfers = answerOf f :: []) ∧
    isValid good = true ∧ isValid bad = false := by decide +kernel

theorem witness_ReadAccRejectsAnInvalidAxis :
    (ready []).seq = .idle ∧ (ready []).cstate = .operational ∧ 2 < (3#32).toNat ∧ 2 < (0xFFFFFFFF#32).toNat := by decide

theorem witness_ReadStatusFailsOnTheErrorCodeOnly :
    (∀ f ∈ [good, bad], let s := ready [answerOf f]
      s.seq = .idle ∧ s.cstate = .operational ∧ s.transport.xfers = answerOf f :: []) ∧
    bad.b0.extractLsb' 0 2 = 3#2 ∧ good.b0.extractLsb' 0 2 ≠ 3#2 := by decide

/-- Positions 1, 9, 10 and 15, and a word whose bit 0 alone is set. -/
theorem witness_ErrorScanFindsTheLeastBitAboveZero :
    (∀ p ∈ [1#4, 9#4, 10#4, 15#4], errorScan (1#16 <<< p.toNat) = .bit p) ∧ (0#4).toNat < 10 ∧ (9#4).toNat < 10 ∧
      10 ≤ (10#4).toNat ∧ 10 ≤ (15#4).toNat ∧ errorScan 1#16 = .noBit := by decide

/-- The first and the third transfer of READ_TEMP fail, and the one transfer of the others. -/
theorem witness_QueriesStopAtTheFirstFailedTransfer :
    ∀ p ∈ [(2, (none : Option (List Byte))), (0, some [0#8, 0#8, 0#8, 0#8, 0#8])],
    let s := ready (List.replicate p.1 (answerOf good) ++ [p.2])
    s.seq = .idle ∧ s.cstate = .operational ∧
      (List.replicate p.1 good).length < [(0x140000EF#32, 1), (0x140000EF#32, 1), (0x140000EF#32, 1)].length ∧
      (List.replicate 0 good).length < [(0x180000E5#32, 1)].length ∧ xferResult p.2 = none ∧
      s.transport.xfers = (List.replicate p.1 good).map answerOf ++ p.2 :: [] ∧
      (Instr.readTemp, [(0x140000EF#32, 1), (0x140000EF#32, 1), (0x140000EF#32, 1)]) ∈
        [(Instr.readTemp, [(0x140000EF#32, 1), (0x140000EF#32, 1), (0x140000EF#32, 1)]),
          (Instr.readAcc 0#32, [(0x040000F7#32, 1)]), (Instr.readAcc 1#32, [(0x080000FD#32, 1)]),
          (Instr.readAcc 2#32, [(0x0C0000FB#32, 1)]), (Instr.readStatus, [(0x180000E5#32, 1)])] := by
  decide +kernel

theorem witness_OnlyFourByteAnswersAreFrames :
    ([] : List Byte).length ≠ 4 ∧ [0#8, 0#8, 0#8, 0#8, 0#8].length ≠ 4 ∧ [1#8, 2#8, 3#8, 4#8].length = 4 := by decide

theorem witness_OperationsWaitForACallThatHasNotReturned_open :
    let s := State.reset
    s.seq = .idle ∧ s.cstate = .uninit ∧ noReset s ∧ s.transport.opens = [] := ⟨rfl, rfl, noReset_of_empty rfl, rfl⟩

theorem witness_OperationsWaitForACallThatHasNotReturned_configure :
    let s := { State.reset with transport := ⟨[some 1], [], []⟩ }
    s.seq = .idle ∧ s.cstate = .uninit ∧ noReset s ∧ s.transport.opens = some 1 :: [] ∧ s.transport.configures = [] :=
  ⟨rfl, rfl, noReset_of_empty rfl, rfl, rfl⟩

/-- No transfer answered, and eight. -/
theorem witness_OperationsWaitForACallThatHasNotReturned_init :
    ∀ n ∈ [0, 8], let s := fresh (List.replicate n (answerOf good))
    s.seq = .idle ∧ s.cstate = .uninit ∧ (List.replicate n good).length < 9 ∧ noReset s ∧
      s.transport = ⟨some 1 :: [], true :: [], (List.replicate n good).map answerOf⟩ := by
  intro n hn
  simp only [List.mem_cons, List.not_mem_nil, or_false] at hn
  obtain rfl | rfl := hn <;> exact ⟨rfl, rfl, by decide, noReset_of_empty rfl, rfl⟩

/-- READ_TEMP with none and with two of its transfers answered, READ_ACC and READ_STATUS with none. -/
theorem witness_OperationsWaitForACallThatHasNotReturned_query :
    ∀ p ∈ [(3, 0), (3, 2), (1, 0)], let s := ready (List.replicate p.2 (answerOf good))
    s.seq = .idle ∧ s.cstate = .operational ∧ (List.replicate p.2 good).length < p.1 ∧ noReset s ∧
      s.transport.xfers = (List.replicate p.2 good).map answerOf := by
  intro p hp
  simp only [List.mem_cons, List.not_mem_nil, or_false] at hp
  obtain rfl | rfl | rfl := hp <;> exact ⟨rfl, rfl, by decide, noReset_of_empty rfl, rfl⟩

/-- An idle core, and one in INIT at a step that issues another word. -/
theorem witness_WireCommandIsOneRequest :
    ∀ s ∈ [ready [answerOf good], during (.busy .init 4) .initializing [answerOf good]], ∀ c ∈ [Cmd.writeMode3, .swReset],
    s.seq.cmd? ≠ some c ∧ s.transport.xfers = answerOf good :: [] := by decide

theorem witness_WireCommandFaultsOnAFailedTransfer :
    ∀ s ∈ [ready [none], during (.busy .init 4) .initializing [none]],
    s.transport.xfers = none :: [] ∧ xferResult none = none := by decide

/-- The mode-set, the identity check with and without the right answer, and the second request of READ_TEMP. -/
theorem witness_EarlierCommandsAdvanceTheSequencer :
    ∀ p ∈ [(SeqOp.init, 3, Cmd.writeMode3), (.init, 10, .readWhoami), (.readTemp, 1, .readTemp)],
    ∀ f ∈ [(⟨0x41#8, 0x00#8, 0x51#8, 0xDD#8⟩ : Frame), bad],
    let s := during (.busy p.1 p.2.1) (if p.1 = .init then .initializing else .operational) [answerOf f]
    s.seq = .busy p.1 p.2.1 ∧ s.seq.cmd? = some p.2.2 ∧ p.2.1 + 1 < stepCount p.1 ∧
      s.transport.xfers = answerOf f :: [] := by decide

theorem witness_LastCommandsDeliverTheResult :
    ∀ f ∈ [good, bad],
    (∀ q ∈ [Seq.busy (.readAcc .x) 0, .busy (.readAcc .z) 0, .busy .readTemp 2, .busy .readStatus 0],
      (during q .operational [answerOf f]).transport.xfers = answerOf f :: [] ∧
        (during q .operational [answerOf f]).seq = q) ∧
    (∀ b : Bool, let s := { during (.busy .init 11) .initializing [answerOf f] with flags := ⟨false, false, b⟩ }
      s.transport.xfers = answerOf f :: [] ∧ s.seq = .busy .init 11 ∧ s.flags.idOk = b) := by decide

/-- Every controller state but INITIALIZING, with every input queue. -/
theorem coherent_core (c : CState) (m : Mode) (xs : List (Option (List Byte))) (hc : c ≠ .initializing) :
    (core c m xs).Coherent :=
  ⟨rfl, hc, fun h => by simp [core] at h; simp [core, h], fun h => by
    simp only [core] at h; cases c <;> simp_all [core], zero_reserved⟩

theorem witness_StatusOutputsShowTheController :
    (core .faulted .mode4 []).Coherent ∧ (ready []).seq = .idle ∧ (ready []).cstate = .operational :=
  ⟨coherent_core _ _ _ (by decide), rfl, rfl⟩

/-- A core that has just failed to open its device. -/
def openFailed : State :=
  { core .faulted .mode3 [] with trace := [.opened Config.devicePath none], handle := none }

theorem witness_StepKeepsTheControllerCoherent :
    (core .operational .mode2 []).Coherent ∧ ∃ t, step (core .operational .mode2 []) = .next t :=
  ⟨coherent_core _ _ _ (by decide), _, rfl⟩

/-- UNINIT about to run INIT, whose `open` fails; INIT waiting at its first request; and FAULTED after the failed `open`. -/
theorem witness_StepKeepsTheCallDiscipline :
    let uninit := { State.reset with port := [.op ⟨0x1#4, 0#32, 0#32⟩], transport := ⟨[none], [], []⟩ }
    (uninit.Coherent ∧ uninit.Disciplined ∧ ∃ t, step uninit = .next t) ∧
    (openFailed.Coherent ∧ openFailed.Disciplined ∧ ∃ t, step openFailed = .next t) := by
  refine ⟨⟨⟨rfl, not_initializing (by decide), fun _ => rfl, fun h => by simp [State.reset] at h, rfl⟩,
    ⟨by simp [State.reset, sentFrames], .inl rfl, fun _ => rfl, fun h => by simp [State.afterModeSet, State.reset] at h,
      fun _ => rfl, fun b e a h => by simp [State.reset] at h, fun e h => by simp [State.reset] at h⟩, _, rfl⟩,
    ⟨⟨rfl, not_initializing (by decide), fun _ => rfl, fun h => by simp [openFailed, core] at h, rfl⟩,
      ⟨by simp [openFailed, sentFrames, Event.sent?], .inl rfl, fun _ => rfl,
        fun h => by simp [State.afterModeSet, openFailed, core, State.reset] at h,
        fun h => by simp [openFailed, core] at h, fun b e a h _ => ⟨?_, rfl⟩,
        fun e h => by simp only [openFailed, List.mem_singleton] at h; subst h; simp [Event.passed?]⟩, _, rfl⟩⟩
  cases b with
  | nil => simp only [openFailed, List.nil_append, List.cons.injEq] at h; exact h.2.symm
  | cons x xs => simp [openFailed] at h

theorem witness_CoherentMachineNeverStops : (during (.busy .init 5) .initializing []).Coherent :=
  ⟨rfl, ⟨by decide, rfl⟩, fun h => by simp [during, core] at h, fun _ => rfl, rfl⟩

/-- Without reset, and with it. -/
theorem witness_FaultedIsLeftOnlyByReset :
    ((core .faulted .mode2 []).Coherent ∧ (core .faulted .mode2 []).cstate = .faulted ∧
      (∃ t, step (core .faulted .mode2 []) = .next t) ∧ noReset (core .faulted .mode2 [])) ∧
    (let s := { core .faulted .mode2 [] with port := [.reset] };
      s.Coherent ∧ s.cstate = .faulted ∧ (∃ t, step s = .next t) ∧ s.port = .reset :: []) :=
  ⟨⟨coherent_core _ _ _ (by decide), rfl, ⟨_, rfl⟩, noReset_of_empty rfl⟩,
    ⟨⟨rfl, not_initializing (by decide), fun h => by simp [core] at h, fun h => by simp [core] at h, rfl⟩, rfl, ⟨_, rfl⟩, rfl⟩⟩

/-- INIT accepted with nothing answered, so that the state changes by no failure. -/
theorem witness_OnlyTheStatedTransitionsHappen :
    let s := { State.reset with port := [.op ⟨0x1#4, 0#32, 0#32⟩], transport := ⟨[some 1], [], []⟩ }
    s.Coherent ∧ noReset s ∧ after (step s) (·.cstate) = some .initializing :=
  ⟨⟨rfl, not_initializing (by decide), fun _ => rfl, fun h => by simp [State.reset] at h, rfl⟩, noReset_of_op rfl, rfl⟩

theorem witness_NoFailedCallIsSwallowed :
    let s := { State.reset with port := [.op ⟨0x1#4, 0#32, 0#32⟩], transport := ⟨[none], [], []⟩ }
    s.Coherent ∧ noReset s ∧ ∃ t, step s = .next t ∧ t.trace = s.trace ++ [.opened Config.devicePath none] ∧
      ∃ e ∈ [Event.opened Config.devicePath none], e.failed = true :=
  ⟨⟨rfl, not_initializing (by decide), fun _ => rfl, fun h => by simp [State.reset] at h, rfl⟩, noReset_of_op rfl, _, rfl, rfl, _,
    List.mem_singleton.2 rfl, rfl⟩

/-- CHANGE_MODE in OPERATIONAL, INIT accepted in Mode2, and INIT that goes on to its first request in Mode2. -/
theorem witness_ModeIsWrittenOnlyByInitAndChangeMode :
    (let s := { ready [] with port := [.op ⟨0x2#4, 2#32, 0#32⟩] };
      s.Coherent ∧ noReset s ∧ ∃ t, step s = .next t ∧ t.mode ≠ s.mode) ∧
    (let s := { core .uninit .mode2 [] with port := [.op ⟨0x1#4, 0#32, 0#32⟩], transport := ⟨[some 1], [true], []⟩ };
      s.Coherent ∧ noReset s ∧ ∃ t, step s = .next t ∧ t.mode ≠ s.mode) ∧
    (let s := { core .initializing .mode2 [] with seq := .busy .init 3 };
      s.Coherent ∧ noReset s ∧ ∃ t, step s = .next t ∧ t.mode ≠ s.mode) :=
  ⟨⟨⟨rfl, not_initializing (by decide), fun h => by simp [ready, core] at h, fun _ => rfl, rfl⟩, noReset_of_op rfl, _, rfl, by decide⟩,
    ⟨⟨rfl, not_initializing (by decide), fun _ => rfl, fun h => by simp [core] at h, rfl⟩, noReset_of_op rfl, _, rfl, by decide⟩,
    ⟨⟨rfl, ⟨by decide, rfl⟩, fun h => by simp [core] at h, fun _ => rfl, rfl⟩, noReset_of_empty rfl, _, rfl, by decide⟩⟩

/-- READ_STATUS whose transfer fails: one answer is consumed. -/
theorem witness_TransfersConsumeAnswersInOrder :
    let s := { ready [none] with port := [.op ⟨0x5#4, 0#32, 0#32⟩] }
    s.Coherent ∧ noReset s ∧ after (step s) (fun t => (receivedFrames t.trace, t.transport.xfers)) = some ([none], []) ∧
      s.cstate ≠ .uninit :=
  ⟨⟨rfl, not_initializing (by decide), fun h => by simp [ready, core] at h, fun _ => rfl, rfl⟩, noReset_of_op rfl, rfl, by decide⟩

/-- INIT accepted with all nine transfers answered: nine answers are consumed. -/
theorem witness_TransfersConsumeAnswersInOrder_init :
    let s := { fresh (List.replicate 9 (answerOf good)) with port := [.op ⟨0x1#4, 0#32, 0#32⟩] }
    s.Coherent ∧ noReset s ∧ s.transport.xfers.length = 9 ∧ after (step s) (·.transport.xfers) = some [] :=
  ⟨⟨rfl, not_initializing (by decide), fun _ => rfl, fun h => by simp [fresh, State.reset] at h, rfl⟩, noReset_of_op rfl, rfl,
    by decide +kernel⟩

/-- INIT at its first request, and READ_TEMP at its last. -/
theorem witness_WaitingOperationResumes :
    ((during (.busy .init 3) .initializing []).seq = .busy .init 3 ∧ stepCount .init ≤ 3 + 9) ∧
    ((during (.busy .readTemp 2) .operational []).seq = .busy .readTemp 2 ∧ stepCount .readTemp ≤ 2 + 1) := by decide

/-- Two different pasts, and each kind of input to come: `open` out or failing, `configure` out or failing, no transfer answered and
eight, the first or the ninth transfer failing, and all nine answered. -/
theorem witness_ResetThenInitForgetsThePast :
    ∀ x ∈ [(⟨[], [], []⟩ : Transport), ⟨[none], [], []⟩, ⟨[some 1], [], []⟩, ⟨[some 1], [false], []⟩, ⟨[some 1], [true], []⟩,
      ⟨[some 1], [true], List.replicate 8 (answerOf good)⟩, ⟨[some 1], [true], [none]⟩,
      ⟨[some 1], [true], List.replicate 8 (answerOf good) ++ [none]⟩, ⟨[some 1], [true], List.replicate 9 (answerOf good)⟩],
    let p : List PortInput := [.reset, .op ⟨0x1#4, 0#32, 0#32⟩]
    let s := { core .faulted .mode2 [] with port := p, transport := x }
    let s' := { during (.busy .readTemp 1) .operational [] with port := p, transport := x }
    (⟨0x1#4, 0#32, 0#32⟩ : HostWord).op = 0x1#4 ∧ s.port = .reset :: .op ⟨0x1#4, 0#32, 0#32⟩ :: [] ∧
      s'.port = .reset :: .op ⟨0x1#4, 0#32, 0#32⟩ :: [] ∧ s'.transport = s.transport := by decide +kernel

/-- The words and the eighth response its clauses ask for are there. -/
theorem witness_ResetThenInitForgetsThePast_clauses :
    powerUpRequests[0]? = some (0xB4000225#32, 5) ∧ powerUpRequests[8]? = some (0x140000EF#32, 1) ∧ xferResult none = none ∧
    (List.replicate 9 good).length = 9 ∧ (List.replicate 9 good)[7]? = some good := ⟨rfl, rfl, rfl, rfl, rfl⟩

/-- READ_ACC rejected, and READ_STATUS with the error code. -/
theorem witness_FailedQueryKeepsTheController :
    (∀ p ∈ [(Instr.readAcc 3#32, ready []), (Instr.readStatus, ready [answerOf bad]),
      (Instr.readTemp, ready [answerOf bad, answerOf bad, answerOf bad])],
      p.2.seq = .idle ∧ p.2.cstate = .operational ∧
        (p.1 = .readTemp ∨ p.1 = .readAcc 3#32 ∨ p.1 = .readStatus) ∧
        after (exec p.1 p.2) (·.result.outcome) = some .fail) := by decide +kernel

theorem witness_AlternativeChecksAgreeOnValidResponses :
    isValid good = true ∧ crcCheck bad = true ∧ bad.b0.extractLsb' 0 2 ≠ 2#2 := by decide +kernel

end Sys2Proof.Tests
end

/-! SUPPORT and proofs for the scope statements (00_scope.md): what the unit operations leave alone, where the sequencer may
stand, and the discipline of the transport calls. -/

namespace Sys2Proof.Machine

/-! ## The unit operations -/

/-- What a unit operation leaves as it was: controller, bus, request registers, inputs and the two flags that are not the
CRC unit's (R8, R75); the core is idle again. -/
structure LeavesControllerAlone (s t : State) : Prop where
  controller : sameController s t
  bus : sameBus s t
  request : sameRequest s t
  idle : t.seq = .idle
  port : t.port = s.port
  success : t.flags.success = s.flags.success
  idOk : t.flags.idOk = s.flags.idOk

/-- The outcome and the value of the instruction are fixed by its operands, the same in every idle state. -/
def DependsOnOperandsAlone (i : Instr) : Prop :=
  ∃ (o : OutcomeCode) (v : Option Value), ∀ s : State, s.seq = .idle →
    ∃ t, exec i s = .next t ∧ t.result.outcome = o ∧ t.result.value = v ∧ LeavesControllerAlone s t

/-- An operation that delivers a result computed from its operands, and may use the CRC unit for it (R18, R75), depends on its
operands alone. -/
theorem dependsOnOperandsAlone_of_crcFinish {i : Instr} {o : OutcomeCode} {v : Option Value} (u : State → CrcUnit)
    (ok : State → Bool)
    (h : ∀ s, exec i s = whenIdle s fun s =>
      ({ s with crcUnit := u s, flags := { s.flags with crcOk := ok s } } : State).finish o v) :
    DependsOnOperandsAlone i :=
  ⟨o, v, fun s hs => ⟨_, (h s).trans (whenIdle_of_idle hs _), rfl, rfl,
    ⟨⟨rfl, rfl, rfl, rfl⟩, ⟨rfl, rfl⟩, ⟨rfl, rfl, rfl⟩, rfl, rfl, rfl, rfl⟩⟩⟩

/-- An operation that only delivers a result computed from its operands depends on them alone. -/
theorem dependsOnOperandsAlone_of_finish {i : Instr} {o : OutcomeCode} {v : Option Value}
    (h : ∀ s, exec i s = whenIdle s (State.finish o v)) : DependsOnOperandsAlone i :=
  dependsOnOperandsAlone_of_crcFinish (·.crcUnit) (·.flags.crcOk) h

/-- CONV_ACCEL is refused on a zero divisor, which is an operand too (R113). -/
theorem convAccel_dependsOnOperandsAlone (a b : Word) : DependsOnOperandsAlone (.convAccel a b) := by
  by_cases hb : b = 0#32
  · refine ⟨.refused, none, fun s hs => ⟨s.refuse, ?_, rfl, rfl,
      ⟨⟨rfl, rfl, rfl, rfl⟩, ⟨rfl, rfl⟩, ⟨rfl, rfl, rfl⟩, hs, rfl, rfl, rfl⟩⟩⟩
    simp [exec, execConvAccel, whenIdle_of_idle hs, hb]
  · exact dependsOnOperandsAlone_of_finish fun s => by simp only [exec, execConvAccel, if_neg hb]; rfl

/-- Settles O26: each unit operation fixes its outcome and value by its operands alone, so two idle states cannot differ in them. -/
theorem unitOperationsDependOnOperandsAlone : Obligations.UnitOperationsDependOnOperandsAlone := by
  intro s s' i hi hs hs'
  have halone : DependsOnOperandsAlone i := by
    rcases hi with ⟨a, rfl⟩ | ⟨a, rfl⟩ | ⟨a, rfl⟩ | ⟨a, rfl⟩ | ⟨a, rfl⟩ | ⟨a, b, rfl⟩ | ⟨a, rfl⟩ | ⟨a, rfl⟩
    · exact dependsOnOperandsAlone_of_crcFinish (fun _ => crcOfFrame (frameOf a)) (·.flags.crcOk) fun _ => rfl
    · exact dependsOnOperandsAlone_of_crcFinish (fun _ => crcOfFrame (frameOf a)) (fun _ => crcCheck (frameOf a)) fun _ => rfl
    · exact dependsOnOperandsAlone_of_finish fun _ => rfl
    · exact dependsOnOperandsAlone_of_finish fun _ => rfl
    · exact dependsOnOperandsAlone_of_finish fun _ => rfl
    · exact convAccel_dependsOnOperandsAlone a b
    · exact dependsOnOperandsAlone_of_finish fun _ => rfl
    · exact dependsOnOperandsAlone_of_finish fun _ => rfl
  obtain ⟨o, v, hov⟩ := halone
  obtain ⟨t, ht, hto, htv, hframe⟩ := hov s hs
  obtain ⟨t', ht', hto', htv', -⟩ := hov s' hs'
  exact ⟨t, t', ht, ht', hto.trans hto'.symm, htv.trans htv'.symm, hframe.controller, hframe.bus, hframe.request,
    hframe.idle, hframe.port, hframe.success, hframe.idOk⟩

/-! ## Where the sequencer stands -/

/-- A sequencer at work belongs to a controller that has not faulted (R131). -/
theorem cstate_ne_faulted_of_legal {c : CState} {op : SeqOp} {k : Nat} (h : (Seq.busy op k).legal c) : c ≠ .faulted := by
  rintro rfl
  rcases legal_positions h with ⟨rfl, -⟩ | ⟨rfl, -⟩ | ⟨⟨a, rfl⟩, -⟩ | ⟨rfl, -⟩
  · cases k <;> simp [Seq.legal] at h
  all_goals simp [Seq.legal] at h

/-- Past INIT's first step an operation's next step is legal in the same controller state. -/
theorem legal_succ {c : CState} {op : SeqOp} {k : Nat} (h : (Seq.busy op k).legal c) (hb : stepsBefore op ≤ k)
    (hk : k + 1 < stepCount op) : (Seq.busy op (k + 1)).legal c := by
  cases op with
  | init =>
    cases k with
    | zero => simp [stepsBefore] at hb
    | succ k => exact ⟨hk, h.2⟩
  | readTemp => exact ⟨hk, h.2⟩
  | readAcc a => simp [stepCount, stepsBefore, expansion] at hk
  | readStatus => simp [stepCount, stepsBefore, expansion] at hk
  | wire w => exact h.elim

/-- An operation other than INIT is in progress in OPERATIONAL only (R131). -/
theorem operational_of_legal {c : CState} {op : SeqOp} {k : Nat} (h : (Seq.busy op k).legal c) (hop : op ≠ .init) :
    c = .operational := by
  cases op with
  | init => exact absurd rfl hop
  | readTemp => exact h.2
  | readAcc a => exact h.2
  | readStatus => exact h.2
  | wire w => exact h.elim

@[simp] theorem State.answered_cstate (s : State) (c : Cmd) (rx : Frame) (rest : List (Option (List Byte))) :
    (s.answered c rx rest).cstate = s.cstate := by simp [State.answered]

@[simp] theorem State.answered_handle (s : State) (c : Cmd) (rx : Frame) (rest : List (Option (List Byte))) :
    (s.answered c rx rest).handle = s.handle := by simp [State.answered]

@[simp] theorem State.answered_trace (s : State) (c : Cmd) (rx : Frame) (rest : List (Option (List Byte))) :
    (s.answered c rx rest).trace = s.trace ++ [.xfer s.handle (frameOf c.word) (some rx), .delay (settle c)] := by
  simp [State.answered]

/-- One step of the operation in progress keeps the sequencer legal. -/
theorem SeqEffect.legal {s t : State} (he : SeqEffect s t) (hl : s.seq.legal s.cstate) : t.seq.legal t.cstate := by
  cases he with
  | hold ht => rwa [ht]
  | opened h rest hs ht => simp [ht, Seq.legal]
  | openFailed rest hs ht => simp [ht, Seq.legal]
  | configured rest hs ht =>
    rw [hs] at hl
    simpa [ht, Seq.legal] using hl.2
  | configureFailed rest hs ht => simp [ht, Seq.legal]
  | delayed hs ht =>
    rw [hs] at hl
    simpa [ht, Seq.legal] using hl.2
  | waiting c hc hx ht => simpa [ht] using hl
  | failed c a rest hc hx ha ht => simp [ht, Seq.legal]
  | advanced op k c rx rest hs hc hx hk ht =>
    simpa [ht] using legal_succ (hs ▸ hl) (cmd?_some (hs ▸ hc)).1 hk
  | finished op k c rx rest hs hc hx hk ht =>
    obtain ⟨-, -, -, hseq, -, -, -, -, hcst⟩ := complete_fields ((s.answered c rx rest).examine op k) op
    rw [ht, hseq, hcst]
    by_cases hop : op = .init
    · simp [hop, Seq.legal]
    · simp [hop, Seq.legal, operational_of_legal (hs ▸ hl) hop]

/-! ## The calls of one step -/

/-- The requests of INIT after the first are commands of the eight other than the mode-set command (R135). -/
theorem emitted_of_mem_init_tail : ∀ c ∈ (expansion .init).tail, c ∈ emittedCmds ∧ c ≠ .writeMode3 := by decide

/-- The requests of the queries are commands of the eight other than the mode-set command (R144, R147, R150). -/
theorem emitted_of_mem_query {op : SeqOp} {k : Nat} {cs : CState} {c : Cmd} (hl : (Seq.busy op k).legal cs)
    (hop : op ≠ .init) (hc : c ∈ expansion op) : c ∈ emittedCmds ∧ c ≠ .writeMode3 := by
  cases op with
  | init => exact absurd rfl hop
  | readTemp =>
    have : c = .readTemp := by simpa [expansion] using hc
    subst this
    decide
  | readAcc a =>
    have : c = axisCmd a := by simpa [expansion] using hc
    subst this
    cases a <;> decide
  | readStatus =>
    have : c = .readStatus := by simpa [expansion] using hc
    subst this
    decide
  | wire w => exact hl.elim

/-- The command at a legal position is one of the eight, and it is the mode-set command at INIT's first request alone (R72,
R168, R233). -/
theorem cmd?_emitted {s : State} {c : Cmd} (hl : s.seq.legal s.cstate) (hc : s.seq.cmd? = some c) :
    c ∈ emittedCmds ∧ ((c = .writeMode3 ∧ s.beforeModeSet) ∨ (c ≠ .writeMode3 ∧ s.afterModeSet)) := by
  cases hs : s.seq with
  | idle => simp [hs, Seq.cmd?] at hc
  | busy op k =>
    rw [hs] at hl hc
    obtain ⟨hb, -, hmem⟩ := cmd?_some hc
    by_cases hop : op = .init
    · subst hop
      have hk3 : 3 ≤ k := hb
      have hget : (expansion .init)[k - 3]? = some c := by simpa [Seq.cmd?, stepsBefore, Nat.not_lt.mpr hk3] using hc
      obtain rfl | hk := Nat.eq_or_lt_of_le hk3
      · have hw : c = .writeMode3 := by simpa [expansion] using hget.symm
        exact ⟨by simp [hw, emittedCmds], .inl ⟨hw, .inr ⟨3, hs, le_rfl⟩⟩⟩
      · have htail : c ∈ (expansion .init).tail := by
          obtain ⟨j, rfl⟩ := Nat.exists_eq_add_of_lt hk
          exact List.mem_of_getElem? (i := j) (by rw [List.getElem?_tail, ← hget]; congr 1; omega)
        obtain ⟨hem, hne⟩ := emitted_of_mem_init_tail c htail
        exact ⟨hem, .inr ⟨hne, .inr ⟨k, hs, hk⟩⟩⟩
    · obtain ⟨hem, hne⟩ := emitted_of_mem_query hl hop hmem
      exact ⟨hem, .inr ⟨hne, .inl (operational_of_legal hl hop)⟩⟩

/-- The events `es` that a step appends to the trace, seen from the state `t` after it. Besides the handle and the failures it
says what is sent: nothing in a step before INIT's first request, else one frame at the place the discipline gives it. -/
structure AppendsCalls (s t : State) (es : List Event) : Prop where
  trace : t.trace = s.trace ++ es
  /-- the handle changes only while no call has passed one -/
  handle : t.handle = s.handle ∨ s.trace = []
  passed : ∀ e ∈ es, ∀ h, e.passed? = some h → h = t.handle
  failed : (∀ e ∈ es, e.failed = false) ∨ (t.cstate = .faulted ∧ ∃ e, es = [e])
  sent : (sentFrames es = [] ∧ s.beforeModeSet ∧ ¬ t.afterModeSet) ∨
    (¬ t.beforeModeSet ∧ ∃ c ∈ emittedCmds, sentFrames es = [frameOf c.word] ∧
      ((c = .writeMode3 ∧ s.beforeModeSet) ∨ (c ≠ .writeMode3 ∧ s.afterModeSet)))
  called : t.cstate ≠ .uninit

theorem sentFrames_append (es fs : List Event) : sentFrames (es ++ fs) = sentFrames es ++ sentFrames fs :=
  List.filterMap_append

theorem frameOf_writeMode3 : frameOf (Cmd.word .writeMode3) = modeSetFrame := by decide

theorem frameOf_ne_modeSetFrame {c : Cmd} (h : c ≠ .writeMode3) : modeSetFrame ≠ frameOf c.word := by
  revert h
  cases c <;> decide

/-- In a disciplined state that has not faulted no call has failed. -/
theorem State.Disciplined.no_failure {s : State} (hd : s.Disciplined) (hc : s.cstate ≠ .faulted) :
    ∀ e ∈ s.trace, e.failed = false := by
  intro e he
  obtain ⟨before, after, hsplit⟩ := List.append_of_mem he
  by_contra hf
  exact hc (hd.failedIsLast before e after hsplit (by simpa using hf)).2

/-- A failure among events of which only the last can have failed is that last one. -/
theorem last_of_failed {es before after : List Event} {e x : Event} (hes : ∀ e ∈ es, e.failed = false)
    (h : es ++ [x] = before ++ e :: after) (hf : e.failed = true) : after = [] := by
  rcases List.eq_nil_or_concat after with rfl | ⟨front, y, rfl⟩
  · rfl
  · have hfront : es = before ++ e :: front := by
      rw [List.concat_eq_append, ← List.cons_append, ← List.append_assoc] at h
      exact (List.append_inj' h rfl).1
    simp [hes e (by simp [hfront])] at hf

/-- A step that sends a frame where the discipline places it keeps the order of the frames sent (R72, R233). -/
theorem State.Disciplined.modeSetFirst_append {s : State} (hd : s.Disciplined) {c : Cmd}
    (hc : (c = .writeMode3 ∧ s.beforeModeSet) ∨ (c ≠ .writeMode3 ∧ s.afterModeSet)) :
    ∃ rest, sentFrames s.trace ++ [frameOf c.word] = modeSetFrame :: rest ∧ modeSetFrame ∉ rest := by
  rcases hc with ⟨rfl, hbefore⟩ | ⟨hne, hafter⟩
  · exact ⟨[], by simp [hd.nothingBefore hbefore, frameOf_writeMode3], by simp⟩
  · obtain hnil | ⟨rest, hrest, hnot⟩ := hd.modeSetFirst
    · exact absurd hnil (hd.somethingAfter hafter)
    · exact ⟨rest ++ [frameOf c.word], by simp [hrest], by simp [hnot, frameOf_ne_modeSetFrame hne]⟩

/-- Calls appended in this way keep the discipline. -/
theorem State.Disciplined.append {s t : State} {es : List Event} (hd : s.Disciplined) (hc : s.cstate ≠ .faulted)
    (ha : AppendsCalls s t es) : t.Disciplined := by
  have hgood := hd.no_failure hc
  have hsent : sentFrames t.trace = sentFrames s.trace ++ sentFrames es := by rw [ha.trace, sentFrames_append]
  have hfirst : (sentFrames es = [] ∧ s.beforeModeSet ∧ ¬ t.afterModeSet) ∨ ¬ t.beforeModeSet ∧
      (∃ c ∈ emittedCmds, sentFrames es = [frameOf c.word]) ∧
      ∃ rest, sentFrames t.trace = modeSetFrame :: rest ∧ modeSetFrame ∉ rest := by
    refine ha.sent.imp_right fun ⟨hnb, c, hem, hes, hplace⟩ => ⟨hnb, ⟨c, hem, hes⟩, ?_⟩
    rw [hsent, hes]
    exact hd.modeSetFirst_append hplace
  exact {
    onlyEmitted := by
      intro f hf
      rw [hsent, List.mem_append] at hf
      rcases hf with hf | hf
      · exact hd.onlyEmitted f hf
      · rcases hfirst with ⟨hnil, -⟩ | ⟨-, ⟨c, hem, hes⟩, -⟩
        · simp [hnil] at hf
        · exact ⟨c, hem, by simpa [hes] using hf⟩
    modeSetFirst := by
      rcases hfirst with ⟨hnil, hbefore, -⟩ | ⟨-, -, hrest⟩
      · exact .inl (by rw [hsent, hnil, hd.nothingBefore hbefore, List.append_nil])
      · exact .inr hrest
    nothingBefore := by
      intro hb
      rcases hfirst with ⟨hnil, hbefore, -⟩ | ⟨hnb, -⟩
      · rw [hsent, hnil, hd.nothingBefore hbefore, List.append_nil]
      · exact absurd hb hnb
    somethingAfter := by
      intro haft
      rcases hfirst with ⟨-, -, hna⟩ | ⟨-, -, rest, hrest, -⟩
      · exact absurd haft hna
      · simp [hrest]
    untouched := fun h => absurd h ha.called
    failedIsLast := by
      intro before e after hsplit hf
      rw [ha.trace] at hsplit
      rcases ha.failed with hok | ⟨hfault, x, rfl⟩
      · have hmem : e ∈ s.trace ++ es := by simp [hsplit]
        have : e.failed = false := (List.mem_append.mp hmem).elim (hgood e) (hok e)
        simp [this] at hf
      · exact ⟨last_of_failed hgood hsplit hf, hfault⟩
    ownHandle := by
      intro e he h hp
      rw [ha.trace, List.mem_append] at he
      rcases he with he | he
      · rcases ha.handle with hh | hnil
        · rw [hh]
          exact hd.ownHandle e he h hp
        · simp [hnil] at he
      · exact ha.passed e he h hp }

/-- A state with the same calls, controller state and handle is disciplined too, unless its sequencer enters INIT elsewhere
than before the first request. -/
theorem State.Disciplined.of_same_calls {s t : State} (hd : s.Disciplined) (hc : t.cstate = s.cstate)
    (hh : t.handle = s.handle) (ht : t.trace = s.trace)
    (hq : ∀ k, t.seq = .busy .init k → s.seq = .busy .init k ∨ (s.cstate = .uninit ∧ k = 0)) : t.Disciplined where
  onlyEmitted := by
    rw [ht]
    exact hd.onlyEmitted
  modeSetFirst := by
    rw [ht]
    exact hd.modeSetFirst
  nothingBefore := by
    rw [ht]
    rintro (hun | ⟨k, hs, hk⟩)
    · exact hd.nothingBefore (.inl (hc ▸ hun))
    · rcases hq k hs with hs' | ⟨hun, -⟩
      · exact hd.nothingBefore (.inr ⟨k, hs', hk⟩)
      · exact hd.nothingBefore (.inl hun)
  somethingAfter := by
    rw [ht]
    rintro (hop | ⟨k, hs, hk⟩)
    · exact hd.somethingAfter (.inl (hc ▸ hop))
    · rcases hq k hs with hs' | ⟨-, rfl⟩
      · exact hd.somethingAfter (.inr ⟨k, hs', hk⟩)
      · omega
  untouched := by
    rw [ht, hc]
    exact hd.untouched
  failedIsLast := by
    rw [ht, hc]
    exact hd.failedIsLast
  ownHandle := by
    rw [ht, hh]
    exact hd.ownHandle

/-! ## Every step keeps the discipline -/

/-- A request is issued only after `open` (R134), so not in UNINIT. -/
theorem cstate_ne_uninit_of_cmd? {s : State} {c : Cmd} (hl : s.seq.legal s.cstate) (hc : s.seq.cmd? = some c) :
    s.cstate ≠ .uninit := by
  intro hun
  cases hs : s.seq with
  | idle => simp [hs, Seq.cmd?] at hc
  | busy op k =>
    rw [hs] at hl hc
    by_cases hop : op = .init
    · subst hop
      have hk : 3 ≤ k := (cmd?_some hc).1
      obtain ⟨j, rfl⟩ := Nat.exists_eq_add_of_le' hk
      simp [Seq.legal, hun] at hl
    · simp [operational_of_legal hl hop] at hun

/-- INIT's steps after `open` stand in INITIALIZING. -/
theorem initializing_of_legal {s : State} {k : Nat} (hl : s.seq.legal s.cstate) (hs : s.seq = .busy .init (k + 1)) :
    s.cstate = .initializing := by
  rw [hs] at hl
  exact hl.2

/-- An answered request appends its transfer and its settle delay, at the place the discipline gives its frame (R130). -/
theorem appendsCalls_answered {s t : State} {c : Cmd} {rx : Frame} (hl : s.seq.legal s.cstate) (hc : s.seq.cmd? = some c)
    (htr : t.trace = s.trace ++ [.xfer s.handle (frameOf c.word) (some rx), .delay (settle c)])
    (hh : t.handle = s.handle) (hun : t.cstate ≠ .uninit) (hseq : ∀ j, t.seq = .busy .init j → 3 < j) :
    AppendsCalls s t [.xfer s.handle (frameOf c.word) (some rx), .delay (settle c)] := by
  obtain ⟨hem, hplace⟩ := cmd?_emitted hl hc
  have hnb : ¬ t.beforeModeSet := by
    rintro (h | ⟨j, hj, hle⟩)
    · exact hun h
    · exact absurd (hseq j hj) (by omega)
  exact {
    trace := htr
    handle := .inl hh
    passed := by simp [Event.passed?, hh]
    failed := .inl (by simp [Event.failed])
    sent := .inr ⟨hnb, c, hem, rfl, hplace⟩
    called := hun }

/-- One step of the operation in progress keeps the call discipline. -/
theorem seqStep_disciplined {s : State} {op : SeqOp} {k : Nat} (hs : s.seq = .busy op k) (hl : s.seq.legal s.cstate)
    (hd : s.Disciplined) : s.seqStep.Disciplined := by
  have hnf : s.cstate ≠ .faulted := cstate_ne_faulted_of_legal (hs ▸ hl)
  cases seqStep_effect hs hl with
  | hold ht => rwa [ht]
  | opened h rest hs0 ht =>
    have hun : s.cstate = .uninit := by simpa [hs0, Seq.legal] using hl
    rw [ht]
    exact hd.append hnf (es := [.opened Config.devicePath (some h)]) {
      trace := rfl
      handle := .inr (hd.untouched hun)
      passed := by simp [Event.passed?]
      failed := .inl (by simp [Event.failed])
      sent := .inl ⟨rfl, .inl hun, by simp [State.afterModeSet]⟩
      called := by simp }
  | openFailed rest hs0 ht =>
    have hun : s.cstate = .uninit := by simpa [hs0, Seq.legal] using hl
    rw [ht]
    exact hd.append hnf (es := [.opened Config.devicePath none]) {
      trace := rfl
      handle := .inl rfl
      passed := by simp [Event.passed?]
      failed := .inr ⟨rfl, _, rfl⟩
      sent := .inl ⟨rfl, .inl hun, by simp [State.afterModeSet]⟩
      called := by simp }
  | configured rest hs1 ht =>
    rw [ht]
    exact hd.append hnf (es := [.configured s.handle Config.spiMode Config.spiMaxHz Config.spiWordBits true]) {
      trace := rfl
      handle := .inl rfl
      passed := by simp [Event.passed?]
      failed := .inl (by simp [Event.failed])
      sent := .inl ⟨rfl, .inr ⟨1, hs1, by omega⟩, by simp [State.afterModeSet, initializing_of_legal hl hs1]⟩
      called := by simp [initializing_of_legal hl hs1] }
  | configureFailed rest hs1 ht =>
    rw [ht]
    exact hd.append hnf (es := [.configured s.handle Config.spiMode Config.spiMaxHz Config.spiWordBits false]) {
      trace := rfl
      handle := .inl rfl
      passed := by simp [Event.passed?]
      failed := .inr ⟨rfl, _, rfl⟩
      sent := .inl ⟨rfl, .inr ⟨1, hs1, by omega⟩, by simp [State.afterModeSet]⟩
      called := by simp }
  | delayed hs2 ht =>
    rw [ht]
    exact hd.append hnf (es := [.delay 10]) {
      trace := rfl
      handle := .inl rfl
      passed := by simp [Event.passed?]
      failed := .inl (by simp [Event.failed])
      sent := .inl ⟨rfl, .inr ⟨2, hs2, by omega⟩, by simp [State.afterModeSet, initializing_of_legal hl hs2]⟩
      called := by simp [initializing_of_legal hl hs2] }
  | waiting c hc hx ht =>
    rw [ht]
    exact hd.of_same_calls (by simp) (by simp) (by simp) fun k hk => .inl (by simpa using hk)
  | failed c a rest hc hx ha ht =>
    obtain ⟨hem, hplace⟩ := cmd?_emitted hl hc
    rw [ht]
    exact hd.append hnf (es := [.xfer s.handle (frameOf c.word) none]) {
      trace := by simp
      handle := .inl (by simp)
      passed := by simp [Event.passed?]
      failed := .inr ⟨rfl, _, rfl⟩
      sent := .inr ⟨by simp [State.beforeModeSet], c, hem, rfl, hplace⟩
      called := by simp }
  | advanced op' k' c rx rest hs' hc hx hk ht =>
    have hstart : stepsBefore op' ≤ k' := (cmd?_some (hs' ▸ hc)).1
    rw [ht]
    refine hd.append hnf (appendsCalls_answered (rx := rx) hl hc (by simp) (by simp)
      (by simpa using cstate_ne_uninit_of_cmd? hl hc) fun j hj => ?_)
    obtain ⟨rfl, rfl⟩ : op' = .init ∧ k' + 1 = j := by simpa using hj
    exact Nat.lt_succ_of_le hstart
  | finished op' k' c rx rest hs' hc hx hk ht =>
    obtain ⟨hh, -, -, hseq, -, htr, -, -, hcst⟩ := complete_fields ((s.answered c rx rest).examine op' k') op'
    rw [← ht] at hh hseq htr hcst
    have hun : s.seqStep.cstate ≠ .uninit := by
      rw [hcst]
      split <;> simp [cstate_ne_uninit_of_cmd? hl hc]
    exact hd.append hnf (appendsCalls_answered (rx := rx) hl hc (by simp [htr]) (by simp [hh]) hun
      fun j hj => by simp [hseq] at hj)

/-- What a run of the sequencer keeps: a legal position and the call discipline. -/
def State.Orderly (s : State) : Prop := s.seq.legal s.cstate ∧ s.Disciplined

theorem seqStep_orderly (s : State) (ho : s.Orderly) : s.seqStep.Orderly := by
  obtain ⟨hl, hd⟩ := ho
  cases hs : s.seq with
  | idle => rw [seqStep_idle hs]; exact ⟨hl, hd⟩
  | busy op k => exact ⟨(seqStep_effect hs hl).legal hl, seqStep_disciplined hs hl hd⟩

/-- An operation accepted where its first step is legal runs in order. -/
theorem perform_disciplined {s : State} {op : SeqOp} (hd : s.Disciplined) (hl : (Seq.busy op 0).legal s.cstate) :
    (s.perform op).Disciplined := by
  have hstart : State.Disciplined { s with seq := .busy op 0 } := by
    refine hd.of_same_calls rfl rfl rfl fun k hk => .inr ?_
    obtain ⟨rfl, rfl⟩ : op = .init ∧ 0 = k := by simpa using hk
    exact ⟨hl, rfl⟩
  exact (runSeq_keeps seqStep_orderly (stepCount op) _ ⟨hl, hstart⟩).2

theorem Quiet.disciplined {s t : State} (hq : Quiet s t) (hd : s.Disciplined) : t.Disciplined :=
  hd.of_same_calls hq.cstate hq.handle hq.trace fun k hk => by simp [hq.seq] at hk

theorem HostEffect.disciplined {h : HostWord} {s t : State} (he : HostEffect h s t) (hd : s.Disciplined) :
    t.Disciplined := by
  cases he with
  | quiet hq => exact hq.disciplined hd
  | modeChanged m hc hop hm hse hq =>
    exact hd.of_same_calls hq.cstate hq.handle hq.trace fun k hk => by simp [show t.seq = .idle from hq.seq] at hk
  | init hc hop ht => rw [ht]; exact perform_disciplined hd hc
  | query op hc hop ht =>
    rw [ht]
    refine perform_disciplined hd ?_
    rcases hop with rfl | ⟨a, rfl⟩ | rfl <;> simp [Seq.legal, hc]

/-- No call has been made since reset, so nothing is out of order. -/
theorem resetCore_disciplined (s : State) : s.resetCore.Disciplined where
  onlyEmitted := by simp [sentFrames]
  modeSetFirst := .inl rfl
  nothingBefore _ := rfl
  somethingAfter h := by simp [State.afterModeSet] at h
  untouched _ := rfl
  failedIsLast before e after h := by simp at h
  ownHandle := by simp

/-- Settles O50: reset forgets the calls, an operation in progress makes them in order, and a host operation is its run or makes
none. Of `Coherent` the legal position of the sequencer is what it needs. -/
theorem stepKeepsTheCallDiscipline : Obligations.StepKeepsTheCallDiscipline := by
  intro s t hcoh hd hstep
  by_cases hr : noReset s
  · obtain ⟨u, hu, he⟩ := step_effect hcoh.sequencer hr
    obtain rfl : u = t := by simpa [hu] using hstep
    cases he with
    | resumed hb ht => rw [ht]; exact (seqStep_orderly s ⟨hcoh.sequencer, hd⟩).2
    | waited hi hp ht => rwa [ht]
    | accepted h rest hi hp he => exact he.disciplined (hd.of_same_calls rfl rfl rfl fun k hk => .inl hk)
  · obtain ⟨rest, hp⟩ : ∃ rest, s.port = .reset :: rest := by simpa [noReset] using hr
    rw [step_reset hp] at hstep
    obtain rfl : _ = t := by simpa using hstep
    exact resetCore_disciplined _

end Sys2Proof.Machine

/-! SUPPORT and proofs for the state statements (10_state.md), first part: the registers after one step of the sequencer, the
coherence of the controller (R12 to R16, R62, R131), and the mode (R13). -/

namespace Sys2Proof.Machine

/-! ## The registers after an answered request and at the end of an operation -/

section
variable (s : State) (c : Cmd) (rx : Frame) (rest : List (Option (List Byte)))

@[simp] theorem State.answered_mode : (s.answered c rx rest).mode = if c = .writeMode3 then .mode3 else s.mode :=
  s.present_mode c

@[simp] theorem State.answered_sens : (s.answered c rx rest).sens = if c = .writeMode3 then 5400#32 else s.sens :=
  s.present_sens c

@[simp] theorem State.answered_seq : (s.answered c rx rest).seq = s.seq := s.present_seq c

@[simp] theorem State.answered_txWord : (s.answered c rx rest).txWord = c.word := s.present_txWord c

@[simp] theorem State.answered_rxWord : (s.answered c rx rest).rxWord = wordOf rx := rfl

@[simp] theorem State.answered_crcUnit : (s.answered c rx rest).crcUnit = crcOfFrame rx := rfl

@[simp] theorem State.answered_resp : (s.answered c rx rest).resp = respOf rx := rfl

@[simp] theorem State.answered_flags : (s.answered c rx rest).flags = { s.flags with crcOk := crcCheck rx } := by
  simp [State.answered]

@[simp] theorem State.answered_result : (s.answered c rx rest).result = s.result := s.present_result c

@[simp] theorem State.answered_port : (s.answered c rx rest).port = s.port := s.present_port c

@[simp] theorem State.answered_transport :
    (s.answered c rx rest).transport = { s.transport with xfers := rest } := rfl

end

@[simp] theorem State.complete_seq (s : State) (op : SeqOp) : (s.complete op).seq = .idle := by cases op <;> rfl

@[simp] theorem State.complete_resp (s : State) (op : SeqOp) : (s.complete op).resp = s.resp := by cases op <;> rfl

/-- Every command word has zero in the reserved bits (R62). -/
theorem rsField_word (c : Cmd) : rsField c.word = 0#2 := by cases c <;> decide

/-! ## Coherence -/

/-- A state with the same divisor, mode, handle and request word is coherent where its sequencer is legal and its controller
state is the same, or INIT has just ended, or a call has failed (R131). -/
theorem State.Coherent.of_registers {s t : State} (h : s.Coherent) (hh : t.handle = s.handle) (hm : t.mode = s.mode)
    (hs : t.sens = s.sens) (hw : t.txWord = s.txWord) (hl : t.seq.legal t.cstate)
    (hc : t.cstate = s.cstate ∨ t.cstate = .faulted ∨ (s.cstate = .initializing ∧ t.cstate = .operational)) :
    t.Coherent where
  divisor := by rw [hs, hm, h.divisor]
  sequencer := hl
  closed hun := by
    rcases hc with hc | hc | ⟨-, hc⟩
    · rw [hh]; exact h.closed (hc ▸ hun)
    · simp [hc] at hun
    · simp [hc] at hun
  opened hop := by
    rw [hh]
    rcases hc with hc | hc | ⟨hin, -⟩
    · exact h.opened (hc ▸ hop)
    · simp [hc] at hop
    · exact h.opened (.inl hin)
  reservedZero := by rw [hw, h.reservedZero]

/-- Presenting a command keeps the controller coherent: mode and divisor are recorded together (R15, R136), and the word's
reserved bits are 0 (R62). -/
theorem State.Coherent.present {s : State} (h : s.Coherent) (c : Cmd) : (s.present c).Coherent where
  divisor := by
    rw [State.present_sens, State.present_mode, h.divisor]
    split <;> rfl
  sequencer := by simpa using h.sequencer
  closed := by simpa using h.closed
  opened := by simpa using h.opened
  reservedZero := by simp [rsField_word]

/-- One step of the operation in progress keeps the controller coherent. -/
theorem SeqEffect.coherent {s t : State} (he : SeqEffect s t) (h : s.Coherent) : t.Coherent := by
  have hl : t.seq.legal t.cstate := he.legal h.sequencer
  cases he with
  | hold ht => rwa [ht]
  | opened d rest hs ht =>
    subst ht
    exact {
      divisor := h.divisor
      sequencer := hl
      closed := by simp
      opened := by simp
      reservedZero := h.reservedZero }
  | openFailed rest hs ht => subst ht; exact h.of_registers rfl rfl rfl rfl hl (.inr (.inl rfl))
  | configured rest hs ht => subst ht; exact h.of_registers rfl rfl rfl rfl hl (.inl rfl)
  | configureFailed rest hs ht => subst ht; exact h.of_registers rfl rfl rfl rfl hl (.inr (.inl rfl))
  | delayed hs ht => subst ht; exact h.of_registers rfl rfl rfl rfl hl (.inl rfl)
  | waiting c hc hx ht => subst ht; exact h.present c
  | failed c a rest hc hx ha ht =>
    subst ht
    exact (h.present c).of_registers rfl rfl rfl rfl hl (.inr (.inl rfl))
  | advanced op k c rx rest hs hc hx hk ht =>
    subst ht
    exact (h.present c).of_registers (by simp) (by simp [State.present_mode, initMode])
      (by simp [State.present_sens, initMode, sensOf]) (by simp) hl (.inl (by simp))
  | finished op k c rx rest hs hc hx hk ht =>
    obtain ⟨hh, hm, hse, -, hw, -, -, -, hcst⟩ := complete_fields ((s.answered c rx rest).examine op k) op
    subst ht
    refine (h.present c).of_registers (by simp [hh]) (by simp [hm, State.present_mode, initMode])
      (by simp [hse, State.present_sens, initMode, sensOf]) (by simp [hw]) hl ?_
    by_cases hop : op = .init
    · subst hop
      obtain ⟨j, rfl⟩ : ∃ j, k = j + 1 := ⟨10, by simpa [stepCount, stepsBefore, expansion] using hk⟩
      exact .inr (.inr ⟨by simpa using initializing_of_legal h.sequencer hs, by simp [hcst]⟩)
    · exact .inl (by simp [hcst, hop])

theorem seqStep_coherent (s : State) (h : s.Coherent) : s.seqStep.Coherent := by
  cases hs : s.seq with
  | idle => rwa [seqStep_idle hs]
  | busy op k => exact (seqStep_effect hs h.sequencer).coherent h

/-- An operation accepted where its first step is legal runs in coherent states. -/
theorem perform_coherent {s : State} {op : SeqOp} (h : s.Coherent) (hl : (Seq.busy op 0).legal s.cstate) :
    (s.perform op).Coherent :=
  runSeq_keeps seqStep_coherent (stepCount op) _ (h.of_registers rfl rfl rfl rfl hl (.inl rfl))

/-- The three queries (R144, R147, R150). -/
def SeqOp.IsQuery (op : SeqOp) : Prop := op = .readTemp ∨ (∃ a, op = .readAcc a) ∨ op = .readStatus

theorem SeqOp.IsQuery.ne_init {op : SeqOp} (h : op.IsQuery) : op ≠ .init := by
  rcases h with rfl | ⟨a, rfl⟩ | rfl <;> simp

/-- A query's first step is legal in OPERATIONAL (R131). -/
theorem legal_query_start {op : SeqOp} {c : CState} (hc : c = .operational) (h : op.IsQuery) :
    (Seq.busy op 0).legal c := by
  rcases h with rfl | ⟨a, rfl⟩ | rfl <;> simp [Seq.legal, hc]

/-- What is quiet keeps the controller coherent: an idle sequencer is legal where a coherent controller stands idle. -/
theorem Quiet.coherent {s t : State} (hq : Quiet s t) (h : s.Coherent) (hi : s.seq = .idle) : t.Coherent :=
  h.of_registers hq.handle hq.mode hq.sens hq.txWord
    (by rw [hq.seq, hq.cstate, ← hi]; exact h.sequencer) (.inl hq.cstate)

theorem HostEffect.coherent {w : HostWord} {s t : State} (he : HostEffect w s t) (h : s.Coherent) (hi : s.seq = .idle) :
    t.Coherent := by
  cases he with
  | quiet hq => exact hq.coherent h hi
  | modeChanged m hc hop hm hse hq =>
    have hold := hq.coherent h hi
    exact {
      divisor := by rw [hse, hm]
      sequencer := hold.sequencer
      closed := hold.closed
      opened := hold.opened
      reservedZero := hold.reservedZero }
  | init hc hop ht => rw [ht]; exact perform_coherent h hc
  | query op hc hop ht => rw [ht]; exact perform_coherent h (legal_query_start hc hop)

/-- Reset leaves Mode3 with its divisor, no handle and an idle sequencer in UNINIT (R31, R210). -/
theorem resetCore_coherent (s : State) : s.resetCore.Coherent where
  divisor := rfl
  sequencer := by simp [Seq.legal]
  closed _ := rfl
  opened h := by simp at h
  reservedZero := by simp [rsField]

theorem State.Coherent.withPort {s : State} (h : s.Coherent) (port : List PortInput) :
    ({ s with port := port } : State).Coherent :=
  h.of_registers rfl rfl rfl rfl h.sequencer (.inl rfl)

/-- A step is a reset, or has one of the effects of a step without reset. -/
theorem step_cases {s t : State} (hl : s.seq.legal s.cstate) (h : step s = .next t) :
    (∃ rest, s.port = .reset :: rest ∧ t = ({ s with port := rest } : State).resetCore) ∨
      (noReset s ∧ StepEffect s t) := by
  by_cases hr : noReset s
  · obtain ⟨u, hu, he⟩ := step_effect hl hr
    obtain rfl : u = t := by simpa [hu] using h
    exact .inr ⟨hr, he⟩
  · obtain ⟨rest, hp⟩ : ∃ rest, s.port = .reset :: rest := by simpa [noReset] using hr
    rw [step_reset hp] at h
    exact .inl ⟨rest, hp, by simpa using h.symm⟩

/-- Settles O49: reset is coherent, an operation in progress keeps the controller coherent step by step, and a host operation
is its run, records a mode with its divisor, or leaves the registers alone. -/
theorem stepKeepsTheControllerCoherent : Obligations.StepKeepsTheControllerCoherent := by
  intro s t h hstep
  rcases step_cases h.sequencer hstep with ⟨rest, -, rfl⟩ | ⟨-, he⟩
  · exact resetCore_coherent _
  · cases he with
    | resumed hb ht => rw [ht]; exact seqStep_coherent s h
    | waited hi hp ht => rwa [ht]
    | accepted w rest hi hp he => exact he.coherent (h.withPort rest) hi

/-- Settles O48: `State.reset` is what reset leaves with no input waiting. -/
theorem resetMeetsBothInvariants : Obligations.ResetMeetsBothInvariants :=
  ⟨resetCore_coherent .reset, resetCore_disciplined .reset⟩

/-! ## FAULTED, and the mode -/

/-- Settles O52: a coherent faulted controller has no operation in progress, and every operation accepted there is quiet. -/
theorem faultedIsLeftOnlyByReset : Obligations.FaultedIsLeftOnlyByReset := by
  intro s t h hc hstep
  rcases step_cases h.sequencer hstep with ⟨rest, hp, rfl⟩ | ⟨hr, he⟩
  · exact ⟨fun hr => absurd hp (hr rest), fun _ _ => rfl⟩
  · refine ⟨fun _ => ?_, fun rest hp => absurd hp (hr rest)⟩
    cases he with
    | resumed hb ht =>
      cases hs : s.seq with
      | idle => exact absurd hs hb
      | busy op k => exact absurd hc (cstate_ne_faulted_of_legal (hs ▸ h.sequencer))
    | waited hi hp ht => rw [ht]; exact ⟨hc, ⟨rfl, rfl, rfl, rfl⟩, rfl, rfl⟩
    | accepted w rest hi hp he =>
      cases he with
      | quiet hq =>
        exact ⟨hq.cstate.trans hc, ⟨hq.cstate, hq.handle, hq.mode, hq.sens⟩, hq.trace, hq.transport⟩
      | modeChanged m hop => simp [hc] at hop
      | init hun => simp [hc] at hun
      | query op hop => simp [hc] at hop

/-- One step of the operation in progress stays in that operation, takes no input from the host, and changes the mode only
where INIT records Mode3 (R16, R136). -/
theorem SeqEffect.frame {s t : State} (he : SeqEffect s t) (hl : s.seq.legal s.cstate) :
    (∀ op k, t.seq = .busy op k → ∃ j, s.seq = .busy op j) ∧ t.port = s.port ∧
      (t.mode = s.mode ∨ (t.mode = .mode3 ∧ ∃ k, s.seq = .busy .init k)) := by
  have hmode {c : Cmd} (hc : s.seq.cmd? = some c) :
      (s.present c).mode = s.mode ∨ ((s.present c).mode = .mode3 ∧ ∃ k, s.seq = .busy .init k) := by
    rw [State.present_mode]
    split
    · next hw =>
      cases hs : s.seq with
      | idle => simp [hs, Seq.cmd?] at hc
      | busy op k =>
        by_cases hop : op = .init
        · exact .inr ⟨rfl, k, by rw [hop]⟩
        · rw [hs] at hc hl
          exact absurd hw (emitted_of_mem_query hl hop (cmd?_some hc).2.2).2
    · exact .inl rfl
  cases he with
  | hold ht => subst ht; exact ⟨fun op k h => ⟨k, h⟩, rfl, .inl rfl⟩
  | opened d rest hs ht => subst ht; exact ⟨fun op k h => ⟨0, by simp_all⟩, rfl, .inl rfl⟩
  | openFailed rest hs ht => subst ht; exact ⟨fun op k h => by simp at h, rfl, .inl rfl⟩
  | configured rest hs ht => subst ht; exact ⟨fun op k h => ⟨1, by simp_all⟩, rfl, .inl rfl⟩
  | configureFailed rest hs ht => subst ht; exact ⟨fun op k h => by simp at h, rfl, .inl rfl⟩
  | delayed hs ht => subst ht; exact ⟨fun op k h => ⟨2, by simp_all⟩, rfl, .inl rfl⟩
  | waiting c hc hx ht => subst ht; exact ⟨fun op k h => ⟨k, by simpa using h⟩, by simp, hmode hc⟩
  | failed c a rest hc hx ha ht => subst ht; exact ⟨fun op k h => by simp at h, by simp, hmode hc⟩
  | advanced op k c rx rest hs hc hx hk ht =>
    subst ht
    exact ⟨fun op' k' h => ⟨k, by simp_all⟩, by simp, by simpa [State.present_mode, initMode] using hmode hc⟩
  | finished op k c rx rest hs hc hx hk ht =>
    obtain ⟨-, hm, -, -, -, -, -, hp, -⟩ := complete_fields ((s.answered c rx rest).examine op k) op
    subst ht
    exact ⟨fun op' k' h => by simp at h, by simp [hp],
      by simpa [hm, State.present_mode, initMode] using hmode hc⟩

/-- What a run of the operation `op` from `s` keeps: a legal position in `op`, the host's inputs, and the mode unless INIT
records Mode3. -/
structure State.InRun (op : SeqOp) (s t : State) : Prop where
  legal : t.seq.legal t.cstate
  inOp : ∀ op' k, t.seq = .busy op' k → op' = op
  port : t.port = s.port
  mode : t.mode = s.mode ∨ (t.mode = .mode3 ∧ op = .init)

theorem seqStep_inRun {op : SeqOp} {s : State} (t : State) (h : State.InRun op s t) : State.InRun op s t.seqStep := by
  cases ht : t.seq with
  | idle => rwa [seqStep_idle ht]
  | busy op' k =>
    have he := seqStep_effect ht h.legal
    obtain ⟨hop, hport, hmode⟩ := he.frame h.legal
    exact {
      legal := he.legal h.legal
      inOp := fun op₂ k₂ hs => (hop op₂ k₂ hs).elim fun j hj => h.inOp op₂ j hj
      port := hport.trans h.port
      mode := by
        rcases hmode with hm | ⟨hm, j, hj⟩
        · rw [hm]; exact h.mode
        · exact .inr ⟨hm, (h.inOp _ j hj).symm⟩ }

theorem perform_inRun {op : SeqOp} {s : State} (hl : (Seq.busy op 0).legal s.cstate) :
    State.InRun op s (s.perform op) :=
  runSeq_keeps seqStep_inRun (stepCount op) _ {
    legal := hl
    inOp := fun op' k h => by simp_all
    port := rfl
    mode := .inl rfl }

/-- Settles O55: the sequencer writes the mode in INIT alone, and of the host operations only CHANGE_MODE and an accepted INIT
change it. -/
theorem modeIsWrittenOnlyByInitAndChangeMode : Obligations.ModeIsWrittenOnlyByInitAndChangeMode := by
  intro s t h hr hstep hne
  obtain ⟨rest, hp, -⟩ | ⟨-, he⟩ := step_cases h.sequencer hstep
  · exact absurd hp (hr rest)
  cases he with
  | resumed hb ht =>
    cases hs : s.seq with
    | idle => exact absurd hs hb
    | busy op k =>
      obtain ⟨-, -, hmode⟩ := (seqStep_effect hs h.sequencer).frame h.sequencer
      rw [← ht, hs] at hmode
      exact .inl ((hmode.resolve_left hne).imp_right .inl)
  | waited hi hp ht => exact absurd (congrArg State.mode ht) hne
  | accepted w rest hi hp he =>
    cases he with
    | quiet hq => exact absurd hq.mode hne
    | modeChanged m hc hop => exact .inr ⟨hi, hc, w, rest, hp, hop⟩
    | init hc hop ht =>
      have hmode := (perform_inRun (op := .init) (s := { s with port := rest }) hc).mode
      rw [← ht] at hmode
      exact .inl ⟨(hmode.resolve_left hne).1, .inr ⟨hi, hc, w, rest, hp, hop⟩⟩
    | query op hc hop ht =>
      have hmode := (perform_inRun (legal_query_start hc hop)).mode
      rw [← ht] at hmode
      exact absurd (hmode.resolve_left hne).2 (SeqOp.IsQuery.ne_init hop)

end Sys2Proof.Machine

/-! Proofs for the state statements (10_state.md), second part: where a step comes from (R210, R211), the unit operations and
the host operations that send nothing, the status outputs (R78), the error scan (R152), and the wire commands one by one
(R130, R172). -/

namespace Sys2Proof.Machine

/-! ## Where a step comes from -/

/-- Settles O6: a sequencer that holds a word is not idle, so the step resumes with that word. -/
theorem stepRunsTheSequencersCommand : Obligations.StepRunsTheSequencersCommand := by
  intro s w i hr hw hd
  have hb : s.seq ≠ .idle := fun hi => by simp [hi, Seq.fetchWord] at hw
  have hdw : decodeWire w = .ok i := hd
  rw [step_of_busy hb hr, resumeStep, hw]
  simp only [hdw, runDecoded]

/-- Settles O8: reset is looked at before the sequencer, and an idle core takes its next operation from the port. -/
theorem resetHasPriorityAndIdleWaits : Obligations.ResetHasPriorityAndIdleWaits := by
  refine ⟨fun s rest hp => step_reset hp, fun s hi hp => ?_⟩
  rw [step_of_idle hi (by simp [noReset, hp]), acceptStep, hp]

/-- Settles O9: the fields of `State.reset`. -/
theorem resetLeavesTheStatedValues : Obligations.ResetLeavesTheStatedValues := ⟨rfl, rfl, rfl, rfl, rfl, rfl, rfl⟩

/-! ## Host operations that send nothing -/

/-- An operation that ends on an idle core changes the result alone. -/
theorem finish_of_idle {s : State} (h : s.seq = .idle) (o : OutcomeCode) (v : Option Value) :
    s.finish o v = { s with result := { s.result with outcome := o, value := v } } := by
  simp [State.finish, ← h]

/-- The bits of three bytes of a word are its bits 31 to 8, in that order. -/
theorem bitsOf_frameOf (a : Word) :
    bitsOf (frameOf a).b0 ++ bitsOf (frameOf a).b1 ++ bitsOf (frameOf a).b2 =
      (List.range 24).map fun i => a.getLsbD (31 - i) := by
  simp [bitsOf, frameOf, List.range_succ]

/-- The source's bit-serial checksum is the polynomial form of R95. -/
theorem crcCompute_frameOf (a : Word) :
    crcCompute (frameOf a).b0 (frameOf a).b1 (frameOf a).b2 = polynomialCrc a := by
  rw [crcCompute_polyRun, polyRun, bitsOf_frameOf, List.foldl_map]
  rfl

/-- Settles O11: the check compares the checksum in polynomial form with the last byte. -/
theorem crcCheckComparesTheFourthByte : Obligations.CrcCheckComparesTheFourthByte := by
  intro s a hi
  refine ⟨crcOfFrame (frameOf a), crcCheck (frameOf a), ?_, ?_⟩
  · rw [crcCheck, crcCompute_frameOf, beq_iff_eq]
    rfl
  · simp only [exec, execCrcCheck, whenIdle_of_idle hi]
    rw [finish_of_idle]
    · rfl
    · exact hi

/-- Settles O19: the table's four rows, and the fallback for every other selector. -/
theorem sensDeliversTheDivisorTable : Obligations.SensDeliversTheDivisorTable := by
  intro s hi
  have hexec (sel : Word) : exec (.sens sel) s = .next { s with result := { s.result with
      outcome := codeOf (sensLookup sel).2, value := some (.divisor (sensLookup sel).1) } } := by
    simp only [exec, execSens, whenIdle_of_idle hi, finish_of_idle hi]
  refine ⟨fun p hp => ?_, fun sel hsel => ?_⟩
  · have hrow : sensLookup p.1 = (p.2, true) := by
      simp only [List.mem_cons, List.not_mem_nil, or_false] at hp
      rcases hp with rfl | rfl | rfl | rfl <;> rfl
    rw [hexec, hrow]
    rfl
  · have hother : sensLookup sel = (2700#32, false) := by rw [sensLookup, modeOf?_none hsel]; rfl
    rw [hexec, hother]
    rfl

/-- Settles O34: an unrecognized selector applies the fallback mode. -/
theorem changeModeFallsBackToMode1 : Obligations.ChangeModeFallsBackToMode1 := by
  intro s sel hi hc hsel
  simp only [exec, execChangeMode, guarded_of_state hi hc, modeOf?_none hsel]
  rw [finish_of_idle]
  · rfl
  · exact hi

/-- Settles O37: an unrecognized axis ends the operation before it starts. -/
theorem readAccRejectsAnInvalidAxis : Obligations.ReadAccRejectsAnInvalidAxis := by
  intro s sel hi hc hsel
  simp only [exec, execReadAcc, guarded_of_state hi hc, axisOf?_none hsel]
  rw [finish_of_idle]
  exact hi

/-! ## The status outputs -/

/-- Settles O47: the codes are one to one on each enumeration, and CHANGE_MODE 2 is evaluated. -/
theorem statusOutputsShowTheController : Obligations.StatusOutputsShowTheController := by
  refine ⟨fun s => ?_, fun s h => ?_, fun o => ?_, fun s hi hc => ?_⟩
  · have hcstate : ∀ c : CState, (cstateCode c = 0#2 ↔ c = .uninit) ∧ (cstateCode c = 1#2 ↔ c = .initializing) ∧
        (cstateCode c = 2#2 ↔ c = .operational) ∧ (cstateCode c = 3#2 ↔ c = .faulted) := by
      intro c
      cases c <;> decide
    have hmode : ∀ m : Mode, (modeCode m = 1#3 ↔ m = .mode1) ∧ (modeCode m = 2#3 ↔ m = .mode2) ∧
        (modeCode m = 3#3 ↔ m = .mode3) ∧ (modeCode m = 4#3 ↔ m = .mode4) ∧
        1 ≤ (modeCode m).toNat ∧ (modeCode m).toNat ≤ 4 := by
      intro m
      cases m <;> decide
    obtain ⟨h0, h1, h2, h3⟩ := hcstate s.cstate
    obtain ⟨m1, m2, m3, m4, hge, hle⟩ := hmode s.mode
    exact ⟨h0, h1, h2, h3, m1, m2, m3, m4, hge, hle, rfl⟩
  · have htable : ∀ m : Mode, (modeCode m, sensOf m) ∈
        [(1#3, 2700#32), (2#3, 1350#32), (3#3, 5400#32), (4#3, 5400#32)] := by
      intro m
      cases m <;> decide
    have hout : (s.modeOut, s.sensOut) = (modeCode s.mode, sensOf s.mode) := congrArg (modeCode s.mode, ·) h.divisor
    rw [hout]
    exact htable s.mode
  · cases o <;> decide
  · refine ⟨_, by simp only [exec, execChangeMode]; exact guarded_of_state hi hc _, ?_⟩
    exact ⟨by simp [State.cstateOut, hc, cstateCode, modeOf?], rfl, rfl⟩

/-! ## The error scan -/

theorem scanPositions_eq_range' : scanPositions = List.range' 1 15 := by decide

/-- The scan's list search finds the least set bit above bit 0. -/
theorem errorScan_eq_bit_iff (data : Half) (p : BitVec 4) : errorScan data = .bit p ↔
    1 ≤ p.toNat ∧ data.getLsbD p.toNat = true ∧ ∀ k, 1 ≤ k → k < p.toNat → data.getLsbD k = false := by
  have hfind : scanPositions.find? (fun k => data.getLsbD k) = some p.toNat ↔
      1 ≤ p.toNat ∧ data.getLsbD p.toNat = true ∧ ∀ k, 1 ≤ k → k < p.toNat → data.getLsbD k = false := by
    have := p.isLt
    simp only [scanPositions_eq_range', List.find?_range'_eq_some, List.mem_range'_1, Bool.not_eq_true']
    constructor
    · exact fun ⟨hbit, hmem, hleast⟩ => ⟨hmem.1, hbit, hleast⟩
    · exact fun ⟨hpos, hbit, hleast⟩ => ⟨hbit, ⟨hpos, by omega⟩, hleast⟩
  rw [← hfind, errorScan]
  split
  · next k hk =>
    have hk16 : k < 16 := by
      have hmem := List.mem_of_find?_eq_some hk
      rw [scanPositions_eq_range', List.mem_range'_1] at hmem
      omega
    rw [hk, Diag.bit.injEq, Option.some.injEq, ← BitVec.toNat_inj, BitVec.toNat_ofNat, Nat.mod_eq_of_lt hk16]
  · next hk => simp [hk]

theorem errorScan_eq_noBit_iff (data : Half) :
    errorScan data = .noBit ↔ ∀ k, 1 ≤ k → k ≤ 15 → data.getLsbD k = false := by
  have hfind : scanPositions.find? (fun k => data.getLsbD k) = none ↔
      ∀ k, 1 ≤ k → k ≤ 15 → data.getLsbD k = false := by
    simp only [scanPositions_eq_range', List.find?_eq_none, List.mem_range'_1, Bool.not_eq_true]
    exact ⟨fun h k hk hk' => h k ⟨hk, by omega⟩, fun h k hk => h k hk.1 (by omega)⟩
  rw [← hfind, errorScan]
  split <;> simp_all

/-- Settles O39: the search goes upward from bit 1, and the Error Table has ten entries. -/
theorem errorScanFindsTheLeastBitAboveZero : Obligations.ErrorScanFindsTheLeastBitAboveZero := by
  refine ⟨fun data => ⟨errorScan_eq_noBit_iff data, errorScan_eq_bit_iff data, ?_⟩, fun p h => dif_pos h,
    fun p h => dif_neg (by omega), rfl, rfl⟩
  rw [errorScan]
  split <;> simp

/-! ## Wire commands -/

/-- The step's use of the response leaves the response as it was received. -/
theorem respond_resp (s : State) : s.respond.resp = s.resp := by
  cases hs : s.seq with
  | idle => simp [State.respond, hs]
  | busy op k =>
    by_cases hk : k + 1 = stepCount op
    · simp [respond_last hs hk]
    · simp [respond_advance hs hk]

/-- Wherever the sequencer stands, an answered request leaves the response that was received. -/
theorem issue_resp {s : State} {rx : Frame} {rest : List (Option (List Byte))}
    (h : s.transport.xfers = answerOf rx :: rest) (c : Cmd) : (s.issue c).resp = respOf rx := by
  by_cases hc : s.seq.cmd? = some c
  · rw [issue_answered h (xferResult_answerOf rx) hc, respond_resp]
    rfl
  · rw [issue_alone h (xferResult_answerOf rx) hc]
    rfl

theorem isValid_iff (f : Frame) : isValid f = true ↔
    crcCompute f.b0 f.b1 f.b2 = f.b3 ∧ ((respOf f).rs = 0#2 ∨ (respOf f).rs = 1#2) := by
  rw [isValid, Bool.and_eq_true, crcCheck, beq_iff_eq, statusValid_iff]
  rfl

/-- A status is startup or normal exactly when its bit 1 is 0 (R104). -/
theorem rs_valid_iff (b : Byte) : b.extractLsb' 0 2 = 0#2 ∨ b.extractLsb' 0 2 = 1#2 ↔ b.getLsbD 1 = false := by
  have hbits : ∀ rs : BitVec 2, rs = 0#2 ∨ rs = 1#2 ↔ rs.getLsbD 1 = false := by decide
  rw [hbits, BitVec.getLsbD_extractLsb']
  rfl

/-- Settles O18: the response is that of the frame received, and `ISVALID` unfolds to its two conditions. -/
theorem responseIsValidOnGoodCrcAndStatus : Obligations.ResponseIsValidOnGoodCrcAndStatus := by
  intro s c rx more hx
  refine ⟨s.issue c, exec_instr c s, ?_⟩
  rw [issue_resp hx]
  exact ⟨isValid_iff rx, by rw [respOf_rs]; exact rs_valid_iff rx.b0⟩

/-- Settles O43: the request alone, field by field. -/
theorem wireCommandIsOneRequest : Obligations.WireCommandIsOneRequest := by
  intro s c rx more hc hx
  have hsettle : ∀ d : Cmd, (d ∈ [.writeMode1, .writeMode2, .writeMode3, .writeMode4] → settle d = 5) ∧
      (d ∈ [.readAccX, .readAccY, .readAccZ, .readTemp, .readStatus, .readMode, .readWhoami] → settle d = 1) := by
    intro d
    cases d <;> simp [settle, Config.modeMs, Config.xferMs]
  refine ⟨_, settle c, exec_instr c s, by cases c <;> rfl, (hsettle c).1, (hsettle c).2, ?_⟩
  rw [issue_alone hx (xferResult_answerOf rx) hc]
  cases c <;> rfl

/-- Settles O44: the transport fault after the presented word. -/
theorem wireCommandFaultsOnAFailedTransfer : Obligations.WireCommandFaultsOnAFailedTransfer := by
  intro s c bad more hx hbad
  refine ⟨_, exec_instr c s, ?_⟩
  rw [issue_failed hx hbad]
  simp

/-- A request before its operation's last one: the sequencer advances by one (R16). -/
theorem issue_advances {s : State} {op : SeqOp} {k : Nat} {c : Cmd} {rx : Frame} {more : List (Option (List Byte))}
    (hs : s.seq = .busy op k) (hc : s.seq.cmd? = some c) (hx : s.transport.xfers = answerOf rx :: more)
    (hk : k + 1 < stepCount op) :
    s.issue c = { (s.answered c rx more).examine op k with seq := .busy op (k + 1) } := by
  rw [issue_answered hx (xferResult_answerOf rx) hc]
  exact respond_advance (by simpa using hs) (by omega)

/-- The identity check looks at the data alone (R138, D11). -/
theorem identityOk_respOf (f : Frame) :
    identityOk Config.idRequiresValid (respOf f) = decide (f.b1 ++ f.b2 = 0x0051#16) := by
  simp [identityOk, Config.idRequiresValid, whoamiId, beq_eq_decide]

/-- The settle delay of a request that is not its operation's last one (R226). -/
theorem settle_of_early {op : SeqOp} {k : Nat} {c : Cmd} (hc : Seq.cmd? (.busy op k) = some c)
    (hk : k + 1 < stepCount op) : settle c = if c = .writeMode3 then 5 else 1 := by
  have hinit : ∀ d ∈ expansion .init ++ expansion .readTemp, settle d = if d = .writeMode3 then 5 else 1 := by
    simp [expansion, settle, Config.modeMs, Config.xferMs]
  obtain ⟨-, -, hmem⟩ := cmd?_some hc
  cases op with
  | init => exact hinit c (List.mem_append_left _ hmem)
  | readTemp => exact hinit c (List.mem_append_right _ hmem)
  | readAcc a => simp [stepCount, stepsBefore, expansion] at hk
  | readStatus => simp [stepCount, stepsBefore, expansion] at hk
  | wire w => cases hw : Cmd.ofWord? w <;> simp [stepCount, stepsBefore, expansion, hw] at hk

/-- Settles O45: the fields after `issue_advances`. -/
theorem earlierCommandsAdvanceTheSequencer : Obligations.EarlierCommandsAdvanceTheSequencer := by
  intro s op k c rx more hs hc hk hx
  refine ⟨_, exec_instr c s, ?_⟩
  rw [issue_advances hs hc hx hk]
  refine ⟨rfl, by simp, by simp, by simp, ?_, by simp, by simp, ?_, ⟨by simp, by simp, by simp, by simp⟩, ?_⟩
  · simp only [State.examine_flags]
    split <;> simp
  · simp only [State.examine_flags, State.answered_resp, identityOk_respOf]
    split <;> simp
  · simp [exchange, settle_of_early (hs ▸ hc) hk]

end Sys2Proof.Machine

/-! SUPPORT and proofs for the state statements (10_state.md), third part: whole operations, as a run of answered requests and
the call that ends it (R16, R81, R130, R230); INIT (R134 to R139), the queries (R144 to R152), and INIT after reset (R192). -/

namespace Sys2Proof.Machine

/-! ## Answered requests -/

/-- The requests of an operation, each word with its settle delay (R81, R226). -/
def requests (op : SeqOp) : List (Word × Nat) := (expansion op).map fun c => (c.word, settle c)

theorem requests_length (op : SeqOp) : (requests op).length = (expansion op).length := List.length_map _

theorem requests_getElem? {op : SeqOp} {n : Nat} {c : Cmd} (h : (expansion op)[n]? = some c) :
    (requests op)[n]? = some (c.word, settle c) := by simp [requests, h]

/-- The model's list of INIT is the table of R135. -/
theorem requests_init : requests .init = powerUpRequests := by decide

@[simp] theorem exchanges_nil (h : Option Handle) (reqs : List (Word × Nat)) : exchanges h reqs [] = [] := by
  cases reqs <;> rfl

theorem exchanges_append (h : Option Handle) (reqs : List (Word × Nat)) (rxs rxs' : List Frame) :
    exchanges h reqs (rxs ++ rxs') = exchanges h reqs rxs ++ exchanges h (reqs.drop rxs.length) rxs' := by
  induction rxs generalizing reqs with
  | nil => simp
  | cons rx rxs ih =>
    cases reqs with
    | nil => simp [exchanges]
    | cons r reqs => simp [exchanges, ih]

/-- The command of an operation's request number `n`. -/
theorem cmd?_request (op : SeqOp) (n : Nat) : Seq.cmd? (.busy op (stepsBefore op + n)) = (expansion op)[n]? := by
  simp [Seq.cmd?]

/-- From request number `j` of `op` in `s`, the answers `rxs` lead to `t`, and `more` answers are left: none of the requests
was the last, so `t` stands at the next one with no result. -/
structure AnsweredRun (op : SeqOp) (j : Nat) (rxs : List Frame) (more : List (Option (List Byte))) (s t : State) :
    Prop where
  seq : t.seq = .busy op (stepsBefore op + (j + rxs.length))
  cstate : t.cstate = s.cstate
  handle : t.handle = s.handle
  port : t.port = s.port
  result : t.result = s.result
  success : t.flags.success = s.flags.success
  /-- the identity is decided by the eighth request of INIT (R138) -/
  idOk_kept : op ≠ .init ∨ j + rxs.length ≤ 7 ∨ 7 < j → t.flags.idOk = s.flags.idOk
  idOk_decided : op = .init → ∀ i r8, rxs[i]? = some r8 → j + i = 7 →
    t.flags.idOk = decide (r8.b1 ++ r8.b2 = 0x0051#16)
  /-- the mode and the divisor are recorded with the mode-set command (R136) -/
  mode : t.mode = if .writeMode3 ∈ ((expansion op).drop j).take rxs.length then .mode3 else s.mode
  sens : t.sens = if .writeMode3 ∈ ((expansion op).drop j).take rxs.length then 5400#32 else s.sens
  trace : t.trace = s.trace ++ exchanges s.handle ((requests op).drop j) rxs
  transport : t.transport = { s.transport with xfers := more }

/-- One answered request, then the others. -/
theorem AnsweredRun.cons {op : SeqOp} {j : Nat} {c : Cmd} {rx : Frame} {rxs : List Frame}
    {rest more : List (Option (List Byte))} {s t : State} (hc : (expansion op)[j]? = some c)
    (h : AnsweredRun op (j + 1) rxs more
      { (s.answered c rx rest).examine op (stepsBefore op + j) with seq := .busy op (stepsBefore op + (j + 1)) } t) :
    AnsweredRun op j (rx :: rxs) more s t := by
  obtain ⟨hlt, hget⟩ := List.getElem?_eq_some_iff.mp hc
  have hcmds : (expansion op).drop j = c :: (expansion op).drop (j + 1) := by rw [List.drop_eq_getElem_cons hlt, hget]
  have hreqs : (requests op).drop j = (c.word, settle c) :: (requests op).drop (j + 1) := by
    simp only [requests, ← List.map_drop, hcmds, List.map_cons]
  exact {
    seq := by rw [h.seq, List.length_cons]; congr 2; omega
    cstate := by simp [h.cstate]
    handle := by simp [h.handle]
    port := by simp [h.port]
    result := by simp [h.result]
    success := by
      rw [h.success]
      simp only [State.examine_flags]
      split <;> simp
    idOk_kept := fun hk => by
      have hne : ¬ (op = .init ∧ stepsBefore op + j = 10) := by
        rintro ⟨rfl, hj⟩
        simp only [stepsBefore, ne_eq, not_true_eq_false, false_or, List.length_cons] at hj hk
        omega
      rw [h.idOk_kept (hk.imp_right fun hk => by simp only [List.length_cons] at hk; omega)]
      simp only [State.examine_flags, if_neg hne, State.answered_flags]
    idOk_decided := fun hop i r8 hi hj => by
      cases i with
      | zero =>
        obtain rfl : rx = r8 := by simpa using hi
        have h10 : op = .init ∧ stepsBefore op + j = 10 := ⟨hop, by subst hop; simp only [stepsBefore]; omega⟩
        rw [h.idOk_kept (.inr (.inr (by omega)))]
        simp only [State.examine_flags, if_pos h10, State.answered_resp, identityOk_respOf]
      | succ i => exact h.idOk_decided hop i r8 (by simpa using hi) (by omega)
    mode := by
      rw [h.mode]
      by_cases hw : c = .writeMode3 <;> simp [hcmds, hw, eq_comm (a := Cmd.writeMode3)]
    sens := by
      rw [h.sens]
      by_cases hw : c = .writeMode3 <;> simp [hcmds, hw, eq_comm (a := Cmd.writeMode3)]
    trace := by simp [h.trace, hreqs, exchanges, exchange]
    transport := by simp [h.transport] }

/-- Answers to requests before the last lead to the request after them. -/
theorem runSeq_answered {op : SeqOp} {more : List (Option (List Byte))} (rxs : List Frame) {s : State} {j : Nat}
    (hs : s.seq = .busy op (stepsBefore op + j)) (hn : j + rxs.length < (expansion op).length)
    (hx : s.transport.xfers = rxs.map answerOf ++ more) :
    AnsweredRun op j rxs more s (State.runSeq rxs.length s) := by
  induction rxs generalizing s j with
  | nil =>
    obtain rfl : s.transport.xfers = more := by simpa using hx
    exact {
      seq := hs
      cstate := rfl
      handle := rfl
      port := rfl
      result := rfl
      success := rfl
      idOk_kept := fun _ => rfl
      idOk_decided := by simp
      mode := by simp [State.runSeq]
      sens := by simp [State.runSeq]
      trace := by simp [State.runSeq]
      transport := rfl }
  | cons rx rxs ih =>
    rw [List.length_cons] at hn
    obtain ⟨c, hc⟩ : ∃ c, (expansion op)[j]? = some c := ⟨_, List.getElem?_eq_getElem (by omega)⟩
    have hcm : s.seq.cmd? = some c := by rw [hs, cmd?_request, hc]
    have hk : stepsBefore op + j + 1 < stepCount op := by unfold stepCount; omega
    refine AnsweredRun.cons (rest := rxs.map answerOf ++ more) hc ?_
    rw [List.length_cons, State.runSeq, seqStep_of_cmd hcm, issue_advances hs hcm (by simpa using hx) hk]
    exact ih rfl (by omega) (by simp)

/-! ## The call that ends the run -/

/-- An operation with answers to some of its requests runs to the next request, and takes that step. -/
theorem runSeq_reaches {op : SeqOp} {rxs : List Frame} {more : List (Option (List Byte))} {s : State}
    (hs : s.seq = .busy op (stepsBefore op)) (hn : rxs.length < (expansion op).length)
    (hx : s.transport.xfers = rxs.map answerOf ++ more) :
    ∃ r c m, AnsweredRun op 0 rxs more s r ∧ (expansion op)[rxs.length]? = some c ∧ r.seq.cmd? = some c ∧
      State.runSeq (expansion op).length s = State.runSeq m (r.issue c) := by
  have hrun : AnsweredRun op 0 rxs more s (State.runSeq rxs.length s) :=
    runSeq_answered rxs (by simpa using hs) (by simpa using hn) hx
  have hget : (expansion op)[rxs.length]? = some (expansion op)[rxs.length] := List.getElem?_eq_getElem hn
  have hcm : (State.runSeq rxs.length s).seq.cmd? = some (expansion op)[rxs.length] := by
    rw [hrun.seq, cmd?_request, Nat.zero_add, hget]
  obtain ⟨m, hm⟩ : ∃ m, (expansion op).length = rxs.length + (m + 1) := ⟨(expansion op).length - rxs.length - 1, by omega⟩
  exact ⟨_, _, m, hrun, hget, hcm, by rw [← seqStep_of_cmd hcm, hm, runSeq_add]; rfl⟩

/-- The next transfer has not returned: the operation stands at it (R230). -/
theorem runSeq_waits {op : SeqOp} {rxs : List Frame} {s : State} (hs : s.seq = .busy op (stepsBefore op))
    (hn : rxs.length < (expansion op).length) (hx : s.transport.xfers = rxs.map answerOf) :
    ∃ r c, AnsweredRun op 0 rxs [] s r ∧ (expansion op)[rxs.length]? = some c ∧
      State.runSeq (expansion op).length s = r.present c := by
  obtain ⟨r, c, m, hrun, hget, hcm, hend⟩ := runSeq_reaches (more := []) hs hn (by simpa using hx)
  have hnone : r.transport.xfers = [] := by rw [hrun.transport]
  exact ⟨r, c, hrun, hget, by rw [hend, issue_waiting hnone, runSeq_fixed (seqStep_present hcm hnone)]⟩

/-- The next transfer fails: the operation ends with the transport fault (R190). -/
theorem runSeq_fails {op : SeqOp} {rxs : List Frame} {bad : Option (List Byte)} {more : List (Option (List Byte))}
    {s : State} (hs : s.seq = .busy op (stepsBefore op)) (hn : rxs.length < (expansion op).length)
    (hbad : xferResult bad = none) (hx : s.transport.xfers = rxs.map answerOf ++ bad :: more) :
    ∃ r c, AnsweredRun op 0 rxs (bad :: more) s r ∧ (expansion op)[rxs.length]? = some c ∧
      State.runSeq (expansion op).length s =
        (({ r.present c with transport := { r.transport with xfers := more } } : State).log
          (.xfer r.handle (frameOf c.word) none)).transportFault := by
  obtain ⟨r, c, m, hrun, hget, -, hend⟩ := runSeq_reaches hs hn hx
  have hnext : r.transport.xfers = bad :: more := by rw [hrun.transport]
  exact ⟨r, c, hrun, hget, by rw [hend, issue_failed hnext hbad, runSeq_idle rfl]⟩

/-- The last transfer is answered: the operation completes (R139, R144, R147, R150). -/
theorem runSeq_finishes {op : SeqOp} {rxs : List Frame} {rx : Frame} {more : List (Option (List Byte))} {s : State}
    (hs : s.seq = .busy op (stepsBefore op)) (hn : rxs.length + 1 = (expansion op).length)
    (hx : s.transport.xfers = rxs.map answerOf ++ answerOf rx :: more) :
    ∃ r c, AnsweredRun op 0 rxs (answerOf rx :: more) s r ∧ (expansion op)[rxs.length]? = some c ∧
      State.runSeq (expansion op).length s =
        ((r.answered c rx more).examine op (stepsBefore op + rxs.length)).complete op := by
  obtain ⟨r, c, m, hrun, hget, hcm, hend⟩ := runSeq_reaches hs (by omega) hx
  have hnext : r.transport.xfers = answerOf rx :: more := by rw [hrun.transport]
  have hseq : r.seq = .busy op (stepsBefore op + rxs.length) := by simpa using hrun.seq
  have hissue : r.issue c = ((r.answered c rx more).examine op (stepsBefore op + rxs.length)).complete op := by
    rw [issue_answered hnext (xferResult_answerOf rx) hcm]
    exact respond_last (by simpa using hseq) (by unfold stepCount; omega)
  exact ⟨r, c, hrun, hget, by rw [hend, hissue, runSeq_idle (State.complete_seq _ op)]⟩

/-- The trace after the last answered request is that of all of them. -/
theorem AnsweredRun.trace_answered {op : SeqOp} {rxs : List Frame} {rx : Frame} {c : Cmd}
    {more rest : List (Option (List Byte))} {s r : State} (h : AnsweredRun op 0 rxs more s r)
    (hc : (expansion op)[rxs.length]? = some c) :
    (r.answered c rx rest).trace = s.trace ++ exchanges s.handle (requests op) (rxs ++ [rx]) := by
  obtain ⟨hlt, hget⟩ := List.getElem?_eq_some_iff.mp (requests_getElem? hc)
  rw [exchanges_append, List.drop_eq_getElem_cons hlt, hget, State.answered_trace, h.trace, h.handle]
  simp [exchanges, exchange]

/-! ## The queries -/

/-- A query has no steps before its requests. -/
theorem SeqOp.IsQuery.stepsBefore {op : SeqOp} (h : op.IsQuery) : stepsBefore op = 0 := by
  rcases h with rfl | ⟨a, rfl⟩ | rfl <;> rfl

/-- The mode-set command is none of a query's requests. -/
theorem SeqOp.IsQuery.ne_writeMode3 {op : SeqOp} (h : op.IsQuery) {c : Cmd} (hc : c ∈ expansion op) : c ≠ .writeMode3 :=
  (emitted_of_mem_query (legal_query_start rfl h) h.ne_init hc).2

theorem examine_of_query {op : SeqOp} (h : op.IsQuery) (k : Nat) (s : State) : s.examine op k = s := by
  rcases h with rfl | ⟨a, rfl⟩ | rfl <;> rfl

/-- A query is its requests from the first. -/
theorem perform_query {op : SeqOp} (h : op.IsQuery) (s : State) :
    s.perform op = State.runSeq (expansion op).length { s with seq := .busy op (stepsBefore op) } := by
  rw [State.perform, stepCount, h.stepsBefore, Nat.zero_add]

/-- The run of a query keeps the controller, and the flags that are decided at its end or by INIT. -/
theorem AnsweredRun.query_frame {op : SeqOp} {rxs : List Frame} {more : List (Option (List Byte))} {s r : State}
    (h : AnsweredRun op 0 rxs more s r) (hq : op.IsQuery) :
    sameController s r ∧ r.flags.success = s.flags.success ∧ r.flags.idOk = s.flags.idOk := by
  have hnot : .writeMode3 ∉ ((expansion op).drop 0).take rxs.length :=
    fun hmem => hq.ne_writeMode3 (List.mem_of_mem_take hmem) rfl
  exact ⟨⟨h.cstate, h.handle, by rw [h.mode, if_neg hnot], by rw [h.sens, if_neg hnot]⟩, h.success,
    h.idOk_kept (.inl hq.ne_init)⟩

/-- All requests of a query are answered and the last response, `rx` to the command `c`, is not looked at yet. -/
structure QueryAnswered (op : SeqOp) (c : Cmd) (rxs : List Frame) (rx : Frame) (more : List (Option (List Byte)))
    (s u : State) : Prop where
  controller : sameController s u
  result : u.result = s.result
  flags : u.flags = { s.flags with crcOk := crcCheck rx }
  holds : holdsRequest c.word rx u
  trace : u.trace = s.trace ++ exchanges s.handle (requests op) (rxs ++ [rx])
  port : u.port = s.port
  transport : u.transport = { s.transport with xfers := more }

/-- A query with all its transfers answered completes on the last response. -/
theorem perform_query_finishes {op : SeqOp} {c : Cmd} {rxs : List Frame} {rx : Frame} {more : List (Option (List Byte))}
    {s : State} (hq : op.IsQuery) (hn : rxs.length + 1 = (expansion op).length) (hc : (expansion op)[rxs.length]? = some c)
    (hx : s.transport.xfers = rxs.map answerOf ++ answerOf rx :: more) :
    ∃ u, QueryAnswered op c rxs rx more s u ∧ s.perform op = u.complete op := by
  obtain ⟨r, c', hrun, hget, hend⟩ :=
    runSeq_finishes (s := { s with seq := .busy op (stepsBefore op) }) rfl hn hx
  obtain rfl : c' = c := by simpa [hget] using hc
  obtain ⟨⟨hcs, hh, hm, hse⟩, hsuccess, hid⟩ := hrun.query_frame hq
  have hne : c' ≠ .writeMode3 := hq.ne_writeMode3 (List.mem_of_getElem? hget)
  refine ⟨r.answered c' rx more, ?_, by rw [perform_query hq, hend, examine_of_query hq]⟩
  exact {
    controller := ⟨by simp [hcs], by simp [hh], by simp [hm, hne], by simp [hse, hne]⟩
    result := by simp [hrun.result]
    flags := by simp [hsuccess, hid]
    holds := ⟨by simp, by simp, by simp, by simp⟩
    trace := hrun.trace_answered hget
    port := by simp [hrun.port]
    transport := by simp [hrun.transport] }

/-- A query that delivers a value: the value when the last response is valid, FAIL with none when it is not, and the rest as
the answered requests leave it. -/
theorem QueryAnswered.delivered {op : SeqOp} {c : Cmd} {rxs : List Frame} {rx : Frame} {more : List (Option (List Byte))}
    {s u : State} (h : QueryAnswered op c rxs rx more s u) (v : Value) :
    sameController s (u.deliver (isValid rx) v) ∧ (u.deliver (isValid rx) v).seq = .idle ∧
      (isValid rx = true → (u.deliver (isValid rx) v).result.outcome = .ok ∧
        (u.deliver (isValid rx) v).result.value = some v) ∧
      (isValid rx = false → (u.deliver (isValid rx) v).result.outcome = .fail ∧
        (u.deliver (isValid rx) v).result.value = none) ∧
      (u.deliver (isValid rx) v).result.diag = s.result.diag ∧
      (u.deliver (isValid rx) v).flags = { s.flags with crcOk := crcCheck rx, success := isValid rx } ∧
      holdsRequest c.word rx (u.deliver (isValid rx) v) ∧
      (u.deliver (isValid rx) v).trace = s.trace ++ exchanges s.handle (requests op) (rxs ++ [rx]) ∧
      (u.deliver (isValid rx) v).port = s.port ∧
      (u.deliver (isValid rx) v).transport = { s.transport with xfers := more } :=
  ⟨h.controller, rfl, fun hv => by simp [hv, codeOf], fun hv => by simp [hv, codeOf], by simp [h.result],
    by simp [h.flags], h.holds, h.trace, h.port, h.transport⟩

/-- The nearest integer is within one half (R115). -/
theorem rhaz_near (q : Rat) : |q - (rhaz q : Rat)| ≤ 1 / 2 := by
  rcases le_or_gt 0 q with h | h
  · obtain ⟨hle, hlt⟩ := floor_add_half_bounds q
    rw [rhaz_of_nonneg h, abs_le]
    constructor <;> linarith
  · obtain ⟨hle, hlt⟩ := floor_add_half_bounds (-q)
    rw [rhaz_of_neg h, Int.cast_neg, abs_le]
    constructor <;> linarith

/-- The delivered temperature is the exact one to within half a hundredth of a degree, in units of 1/189 (R114). -/
theorem convTemp_near (raw : Half) : 2 * |1000 * (raw.toNat : Int) - 5162535 - 189 * convTemp raw| ≤ 189 := by
  have hnear := rhaz_near ((1000 * (raw.toNat : Rat) - 5162535) / 189)
  rw [← convTemp_eq, abs_le] at hnear
  have hlow : (-189 : Rat) ≤ 2 * (1000 * (raw.toNat : Rat) - 5162535 - 189 * (convTemp raw : Rat)) := by linarith [hnear.1]
  have hhigh : 2 * (1000 * (raw.toNat : Rat) - 5162535 - 189 * (convTemp raw : Rat)) ≤ 189 := by linarith [hnear.2]
  have hlow' : -189 ≤ 2 * (1000 * (raw.toNat : Int) - 5162535 - 189 * convTemp raw) := by exact_mod_cast hlow
  have hhigh' : 2 * (1000 * (raw.toNat : Int) - 5162535 - 189 * convTemp raw) ≤ 189 := by exact_mod_cast hhigh
  have habs : |1000 * (raw.toNat : Int) - 5162535 - 189 * convTemp raw| ≤ 94 := abs_le.mpr ⟨by omega, by omega⟩
  omega

/-- Settles O35: the third response is valid or not, and its temperature is within the rounding. -/
theorem readTempReportsTheThirdResponse : Obligations.ReadTempReportsTheThirdResponse := by
  intro s r1 r2 r3 more hi hc hx
  obtain ⟨u, hu, hend⟩ := perform_query_finishes (op := .readTemp) (c := .readTemp) (rxs := [r1, r2])
    (.inl rfl) rfl rfl hx
  obtain ⟨-, -, hresp, -⟩ := hu.holds
  have hcomplete : u.complete .readTemp = u.deliver (isValid r3) (tempValue (r3.b1 ++ r3.b2)) := by
    rw [State.complete, hresp, tempSuccess_respOf, respOf_data]
  obtain ⟨hctl, hseq, hok, hfail, hrest⟩ := hu.delivered (tempValue (r3.b1 ++ r3.b2))
  rw [← hcomplete, ← hend] at hctl hseq hok hfail hrest
  refine ⟨_, guarded_of_state hi hc _, hctl, hseq, fun hv => ?_, hfail, hrest⟩
  exact ⟨(hok hv).1, convTemp (r3.b1 ++ r3.b2), (hok hv).2, convTemp_near _⟩

/-- A divisor of the table is not zero (R25). -/
theorem sensOf_toInt_ne_zero (m : Mode) : ((sensOf m).toInt : Rat) ≠ 0 := by
  have h : (sensOf m).toInt ≠ 0 := by cases m <;> decide
  exact_mod_cast h

theorem requests_readAcc (a : Axis) : requests (.readAcc a) = [(axisWord a, 1)] := by cases a <;> decide

theorem axisCmd_word (a : Axis) : (axisCmd a).word = axisWord a := by cases a <;> decide

/-- Settles O36: a divisor of the table is not zero, so the delivered quotient times the divisor is the raw value. -/
theorem readAccScalesTheResponse : Obligations.ReadAccScalesTheResponse := by
  intro s sel a rx more hi hc hdiv hsel hx
  have haxis : axisOf? sel = some a := by
    simp only [List.mem_cons, Prod.mk.injEq, List.not_mem_nil, or_false] at hsel
    rcases hsel with ⟨rfl, rfl⟩ | ⟨rfl, rfl⟩ | ⟨rfl, rfl⟩ <;> rfl
  have hexec : exec (.readAcc sel) s = .next (s.perform (.readAcc a)) := by
    simp only [exec, execReadAcc, guarded_of_state hi hc, haxis]
  obtain ⟨u, hu, hend⟩ := perform_query_finishes (op := .readAcc a) (c := axisCmd a) (rxs := [])
    (.inr (.inl ⟨a, rfl⟩)) rfl rfl hx
  obtain ⟨-, -, hresp, -⟩ := hu.holds
  obtain ⟨-, -, -, hsens⟩ := hu.controller
  have hcomplete : u.complete (.readAcc a) = u.deliver (isValid rx) (accValue (rx.b1 ++ rx.b2) s.sens) := by
    rw [State.complete, hresp, hsens, respOf_data, accSuccess, respOf_isValid]
  obtain ⟨hctl, hseq, hok, hfail, hdiag, hflags, hholds, htrace, hrest⟩ := hu.delivered (accValue (rx.b1 ++ rx.b2) s.sens)
  rw [← hcomplete, ← hend] at hctl hseq hok hfail hdiag hflags hholds htrace hrest
  rw [axisCmd_word] at hholds
  refine ⟨_, hexec, hctl, hseq, fun hv => ?_, hfail, hdiag, hflags, hholds, ?_, hrest⟩
  · refine ⟨(hok hv).1, convAccel (rx.b1 ++ rx.b2) s.sens, (hok hv).2, ?_⟩
    rw [convAccel, hdiv, div_mul_cancel₀ _ (sensOf_toInt_ne_zero s.mode)]
  · simpa [requests_readAcc, exchanges] using htrace

/-- Settles O38: with the default parameter the outcome is the status alone (R151, U8). -/
theorem readStatusFailsOnTheErrorCodeOnly : Obligations.ReadStatusFailsOnTheErrorCodeOnly := by
  intro s rx more hi hc hx
  obtain ⟨u, hu, hend⟩ := perform_query_finishes (op := .readStatus) (c := .readStatus) (rxs := [])
    (.inr (.inr rfl)) rfl rfl hx
  obtain ⟨-, -, hresp, -⟩ := hu.holds
  have hreqs : requests .readStatus = [(0x180000E5#32, 1)] := by decide
  have htrace : u.trace = s.trace ++ exchange s.handle 0x180000E5#32 1 rx := by simpa [hreqs, exchanges] using hu.trace
  refine ⟨_, (guarded_of_state hi hc _).trans (congrArg _ hend), hu.controller, rfl, rfl, fun herr => ?_, fun hgood => ?_,
    ?_, ?_, hu.holds, htrace, hu.port, hu.transport⟩
  · simp [State.complete, hresp, statusSuccess, Config.statusRequiresCrc, statusDiag, rsError, herr, codeOf]
  · simp [State.complete, hresp, statusSuccess, Config.statusRequiresCrc, statusDiag, rsError, hgood, codeOf]
  · simp [State.complete, hu.flags]
  · simp [State.complete, hu.flags]

/-- The queries as the host presents them, each with its requests. -/
theorem exec_query {i : Instr} {reqs : List (Word × Nat)}
    (h : (i, reqs) ∈ [(Instr.readTemp, [(0x140000EF#32, 1), (0x140000EF#32, 1), (0x140000EF#32, 1)]),
      (Instr.readAcc 0#32, [(0x040000F7#32, 1)]), (Instr.readAcc 1#32, [(0x080000FD#32, 1)]),
      (Instr.readAcc 2#32, [(0x0C0000FB#32, 1)]), (Instr.readStatus, [(0x180000E5#32, 1)])]) :
    ∃ op : SeqOp, op.IsQuery ∧ requests op = reqs ∧
      ∀ s : State, s.seq = .idle → s.cstate = .operational → exec i s = .next (s.perform op) := by
  have hacc (sel : Word) (a : Axis) (hsel : axisOf? sel = some a) (s : State) (hi : s.seq = .idle)
      (hc : s.cstate = .operational) : exec (.readAcc sel) s = .next (s.perform (.readAcc a)) := by
    simp only [exec, execReadAcc, guarded_of_state hi hc, hsel]
  simp only [List.mem_cons, Prod.mk.injEq, List.not_mem_nil, or_false] at h
  rcases h with ⟨rfl, rfl⟩ | ⟨rfl, rfl⟩ | ⟨rfl, rfl⟩ | ⟨rfl, rfl⟩ | ⟨rfl, rfl⟩
  · exact ⟨.readTemp, .inl rfl, by decide, fun s hi hc => guarded_of_state hi hc _⟩
  · exact ⟨.readAcc .x, .inr (.inl ⟨_, rfl⟩), requests_readAcc .x, hacc _ _ rfl⟩
  · exact ⟨.readAcc .y, .inr (.inl ⟨_, rfl⟩), requests_readAcc .y, hacc _ _ rfl⟩
  · exact ⟨.readAcc .z, .inr (.inl ⟨_, rfl⟩), requests_readAcc .z, hacc _ _ rfl⟩
  · exact ⟨.readStatus, .inr (.inr rfl), by decide, fun s hi hc => guarded_of_state hi hc _⟩

/-- Settles O40: the answered requests of the run, then the transport fault of the next one. -/
theorem queriesStopAtTheFirstFailedTransfer : Obligations.QueriesStopAtTheFirstFailedTransfer := by
  intro s i reqs rxs bad more hmem hi hc hn hbad hx
  obtain ⟨op, hq, rfl, hexec⟩ := exec_query hmem
  rw [requests_length] at hn
  obtain ⟨r, c, hrun, hget, hend⟩ :=
    runSeq_fails (s := { s with seq := .busy op (stepsBefore op) }) rfl hn hbad hx
  obtain ⟨⟨hcs, hh, hm, hse⟩, hsuccess, hid⟩ := hrun.query_frame hq
  have hne : c ≠ .writeMode3 := hq.ne_writeMode3 (List.mem_of_getElem? hget)
  have htrace : r.trace = s.trace ++ exchanges s.handle (requests op) rxs := hrun.trace
  refine ⟨_, c.word, settle c, requests_getElem? hget, hexec s hi hc, ?_⟩
  rw [perform_query hq, hend]
  exact ⟨rfl, by simp [hh], by simp [State.present_mode, hne, hm], by simp [State.present_sens, hne, hse], rfl, rfl, rfl,
    by simp [hsuccess], by simp [hid], by simp, by simp [htrace, hh], by simp [hrun.port], by simp [hrun.transport]⟩

/-! ## INIT -/

/-- The state after `open` has returned the handle `d` (R134). -/
def State.afterOpen (d : Handle) (opens : List (Option Handle)) (s : State) : State :=
  { s with
    cstate := .initializing, handle := some d, seq := .busy .init 1
    trace := s.trace ++ [.opened Config.devicePath (some d)]
    transport := { s.transport with opens := opens } }

/-- The state before INIT's first request: `open` and `configure` have succeeded and the power-up delay is asked for (R134). -/
def State.poweredUp (d : Handle) (opens : List (Option Handle)) (confs : List Bool) (s : State) : State :=
  { s with
    cstate := .initializing, handle := some d, seq := .busy .init 3, trace := s.trace ++ powerUpEvents d
    transport := { s.transport with opens := opens, configures := confs } }

/-- INIT in UNINIT is its run. -/
theorem exec_init {s : State} (hi : s.seq = .idle) (hc : s.cstate = .uninit) : exec .init s = .next (s.perform .init) :=
  guarded_of_state hi hc _

/-- INIT is the step that opens, then the other eleven. -/
theorem perform_init_eq (s : State) :
    s.perform .init = State.runSeq 11 ({ s with seq := .busy .init 0 } : State).openStep := rfl

/-- `open` has not returned: INIT stands at its first step. -/
theorem perform_init_openWaits {s : State} (ho : s.transport.opens = []) :
    s.perform .init = { s with seq := .busy .init 0 } :=
  runSeq_fixed (s := { s with seq := .busy .init 0 }) (openStep_waiting ho) _

/-- `open` fails: INIT ends there. -/
theorem perform_init_openFails {s : State} {opens : List (Option Handle)} (ho : s.transport.opens = none :: opens) :
    s.perform .init = (({ s with seq := .busy .init 0, transport := { s.transport with opens := opens } } : State).log
      (.opened Config.devicePath none)).transportFault := by
  rw [perform_init_eq, openStep_failed (s := { s with seq := .busy .init 0 }) ho, runSeq_idle rfl]

/-- `open` succeeds: INIT goes on with `configure`. -/
theorem perform_init_opened {s : State} {d : Handle} {opens : List (Option Handle)}
    (ho : s.transport.opens = some d :: opens) : s.perform .init = State.runSeq 10 (s.afterOpen d opens).configureStep := by
  rw [perform_init_eq, openStep_opened (s := { s with seq := .busy .init 0 }) ho]
  rfl

/-- `configure` has not returned: INIT stands at its second step. -/
theorem perform_init_configureWaits {s : State} {d : Handle} {opens : List (Option Handle)}
    (ho : s.transport.opens = some d :: opens) (hf : s.transport.configures = []) :
    s.perform .init = s.afterOpen d opens := by
  have hstep : (s.afterOpen d opens).seqStep = s.afterOpen d opens := configureStep_waiting hf
  rw [perform_init_opened ho, configureStep_waiting (s := s.afterOpen d opens) hf, runSeq_fixed hstep]

/-- `configure` fails: INIT ends there. -/
theorem perform_init_configureFails {s : State} {d : Handle} {opens : List (Option Handle)} {confs : List Bool}
    (ho : s.transport.opens = some d :: opens) (hf : s.transport.configures = false :: confs) :
    s.perform .init = (({ s.afterOpen d opens with
      transport := { s.transport with opens := opens, configures := confs } } : State).log
      (.configured (some d) Config.spiMode Config.spiMaxHz Config.spiWordBits false)).transportFault := by
  rw [perform_init_opened ho, configureStep_failed (s := s.afterOpen d opens) hf, runSeq_idle rfl]
  rfl

/-- `configure` succeeds: after the delay, what is left of INIT is the run of its requests. -/
theorem perform_init_poweredUp {s : State} {d : Handle} {opens : List (Option Handle)} {confs : List Bool}
    (ho : s.transport.opens = some d :: opens) (hf : s.transport.configures = true :: confs) :
    s.perform .init = State.runSeq (expansion .init).length (s.poweredUp d opens confs) := by
  rw [perform_init_opened ho, configureStep_configured (s := s.afterOpen d opens) hf, State.runSeq, seqStep_of_none rfl,
    internalStep_delay rfl]
  simp [State.delayStep, State.log, State.afterOpen, State.poweredUp, powerUpEvents, Config.powerupMs, expansion]

/-- At the next request of INIT the mode is Mode3 and the divisor its own: the first request records them (R136). -/
theorem AnsweredRun.present_mode {rxs : List Frame} {more : List (Option (List Byte))} {s r : State} {c : Cmd}
    (h : AnsweredRun .init 0 rxs more s r) (hc : (expansion .init)[rxs.length]? = some c) :
    (r.present c).mode = .mode3 ∧ (r.present c).sens = 5400#32 := by
  rw [State.present_mode, State.present_sens, h.mode, h.sens]
  cases rxs with
  | nil =>
    obtain rfl : c = .writeMode3 := by simpa [expansion] using hc.symm
    exact ⟨rfl, rfl⟩
  | cons rx rxs =>
    have hmem : Cmd.writeMode3 ∈ ((expansion .init).drop 0).take (rx :: rxs).length := by simp [expansion]
    rw [if_pos hmem, if_pos hmem]
    exact ⟨ite_self _, ite_self _⟩

/-- Settles O31: nine answered requests after the power-up, of which the eighth decides the outcome. -/
theorem initRunsThePowerUpSequence : Obligations.InitRunsThePowerUpSequence := by
  intro s d opens confs rxs more hi hc hlen hx
  obtain ⟨front, r9, rfl⟩ : ∃ front r9, rxs = front ++ [r9] := by
    rcases List.eq_nil_or_concat rxs with rfl | ⟨front, r9, rfl⟩
    · simp at hlen
    · exact ⟨front, r9, List.concat_eq_append⟩
  have hfront : front.length = 8 := by simpa using hlen
  have hr8 : front[7]? = some front[7] := List.getElem?_eq_getElem (by omega)
  obtain ⟨r, c, hrun, hget, hend⟩ := runSeq_finishes (op := .init) (rxs := front) (rx := r9) (more := more)
    (s := s.poweredUp d opens confs) rfl (by rw [hfront]; rfl) (by simp [State.poweredUp, hx])
  obtain rfl : c = .readTemp := by simpa [expansion, hfront] using hget.symm
  obtain ⟨hmode, hsens⟩ := hrun.present_mode hget
  have hid := hrun.idOk_decided rfl 7 _ hr8 rfl
  have htrace := hrun.trace_answered (rx := r9) (rest := more) hget
  have hfinal : s.perform .init = (r.answered .readTemp r9 more).complete .init := by
    rw [perform_init_poweredUp (by rw [hx]) (by rw [hx]), hend, hfront]
    rfl
  refine ⟨_, front[7], r9, by rw [List.getElem?_append_left (by omega), hr8], by simp [← hfront],
    (exec_init hi hc).trans (congrArg _ hfinal), rfl, ?_, hmode, hsens, rfl, ?_, ?_,
    ⟨rfl, rfl, rfl, rfl⟩, ?_, ?_, ?_⟩
  · simp [State.complete, hrun.handle, State.poweredUp]
  · simp [State.complete, hrun.result, hid, codeOf, State.poweredUp]
  · simp [State.complete, hrun.success, hid, State.poweredUp]
  · rw [← requests_init]
    exact htrace
  · simp [State.complete, hrun.port, State.poweredUp]
  · simp [State.complete, hrun.transport, State.poweredUp]

/-- Settles O32: `open`, `configure`, or the run of the requests ends with the transport fault. -/
theorem initStopsAtTheFirstFailedCall : Obligations.InitStopsAtTheFirstFailedCall := by
  refine ⟨fun s opens hi hc ho => ?_, fun s d opens confs hi hc ho hf => ?_,
    fun s d opens confs rxs bad more hi hc hn hbad hx => ?_⟩
  · rw [exec_init hi hc, perform_init_openFails ho]
    simp [State.transportFault, State.log, faultDiag, hi]
  · rw [exec_init hi hc, perform_init_configureFails ho hf]
    simp [State.transportFault, State.log, State.afterOpen, faultDiag, hi]
  · obtain ⟨r, c, hrun, hget, hend⟩ := runSeq_fails (op := .init) (rxs := rxs) (more := more)
      (s := s.poweredUp d opens confs) rfl hn hbad (by simp [State.poweredUp, hx])
    obtain ⟨hmode, hsens⟩ := hrun.present_mode hget
    have hfinal := perform_init_poweredUp (s := s) (by rw [hx]) (by rw [hx])
    rw [hend] at hfinal
    refine ⟨_, c.word, settle c, by rw [← requests_init]; exact requests_getElem? hget,
      (exec_init hi hc).trans (congrArg _ hfinal), rfl, ?_, hmode, hsens, rfl, ?_, by simp, ?_, ?_, ?_, ?_⟩
    · simp [hrun.handle, State.poweredUp]
    · simp [hrun.seq, hrun.result, faultDiag, State.poweredUp]
    · simp [hrun.success, State.poweredUp]
    · simp [hrun.trace, hrun.handle, State.poweredUp, requests_init]
    · simp [hrun.port, State.poweredUp]
    · simp [hrun.transport, State.poweredUp]

/-! ## INIT after reset -/

theorem transport_eq {x : Transport} {opens : List (Option Handle)} {confs : List Bool}
    {xfers : List (Option (List Byte))} (ho : x.opens = opens) (hf : x.configures = confs) (hx : x.xfers = xfers) :
    x = ⟨opens, confs, xfers⟩ := by subst ho hf hx; rfl

/-- What reset leaves depends on the inputs to come alone (R192). -/
theorem resetCore_eq {s s' : State} (hp : s'.port = s.port) (hx : s'.transport = s.transport) :
    s'.resetCore = s.resetCore := by simp [State.resetCore, hp, hx]

/-- A reset core to which INIT is presented runs it (R75, R132). -/
theorem step_init_of_reset {s : State} {h : HostWord} {rest : List PortInput} (hop : h.op = 0x1#4)
    (hp : s.port = .op h :: rest) :
    step s.resetCore = .next (({ s with port := rest } : State).resetCore.perform .init) := by
  have hdecode : decode (.host h) = .ok .init := by simp [decode, decodeHost, hop]
  have hr : noReset s.resetCore := by simp [noReset, hp]
  rw [step_of_idle rfl hr, acceptStep, State.resetCore_port, hp]
  simp only [hdecode, runDecoded]
  exact exec_init rfl rfl

/-- INIT with fewer than nine transfers answered stands INITIALIZING, and its trace is that of the answered requests (R230). -/
theorem perform_init_waits {s : State} {d : Handle} {opens : List (Option Handle)} {confs : List Bool} {rxs : List Frame}
    (hn : rxs.length < 9) (hx : s.transport = ⟨some d :: opens, true :: confs, rxs.map answerOf⟩) :
    (s.perform .init).cstate = .initializing ∧
      (s.perform .init).trace = s.trace ++ powerUpEvents d ++ exchanges (some d) powerUpRequests rxs := by
  obtain ⟨r, c, hrun, hget, hend⟩ := runSeq_waits (op := .init) (rxs := rxs) (s := s.poweredUp d opens confs) rfl hn
    (by simp [State.poweredUp, hx])
  rw [perform_init_poweredUp (by rw [hx]) (by rw [hx]), hend]
  exact ⟨by simp [hrun.cstate, State.poweredUp], by simp [hrun.trace, State.poweredUp, requests_init]⟩

/-- What INIT keeps once `open` has returned the handle `d`: a legal position past UNINIT, and the handle. -/
def State.OpenedWith (d : Handle) (s : State) : Prop := s.seq.legal s.cstate ∧ s.cstate ≠ .uninit ∧ s.handle = some d

theorem seqStep_openedWith {d : Handle} (s : State) (h : s.OpenedWith d) : s.seqStep.OpenedWith d := by
  obtain ⟨hl, hun, hd⟩ := h
  cases hs : s.seq with
  | idle => rw [seqStep_idle hs]; exact ⟨hl, hun, hd⟩
  | busy op k =>
    have he := seqStep_effect hs hl
    refine ⟨he.legal hl, ?_⟩
    cases he with
    | hold ht => rw [ht]; exact ⟨hun, hd⟩
    | opened d' rest hs0 ht => exact absurd (by simpa [hs0, Seq.legal] using hl) hun
    | openFailed rest hs0 ht => exact absurd (by simpa [hs0, Seq.legal] using hl) hun
    | configured rest hs1 ht => rw [ht]; exact ⟨hun, hd⟩
    | configureFailed rest hs1 ht => simp [ht, hd]
    | delayed hs2 ht => rw [ht]; exact ⟨hun, hd⟩
    | waiting c hc hx ht => simp [ht, hun, hd]
    | failed c a rest hc hx ha ht => simp [ht, hd]
    | advanced op k c rx rest hs hc hx hk ht => simp [ht, hun, hd]
    | finished op k c rx rest hs hc hx hk ht =>
      obtain ⟨hh, -, -, -, -, -, -, -, hcst⟩ := complete_fields ((s.answered c rx rest).examine op k) op
      rw [ht, hh, hcst]
      exact ⟨by split <;> simp [hun], by simp [hd]⟩

/-- Once `open` has returned a handle, INIT keeps it whatever the other calls answer (R12). -/
theorem perform_init_handle {s : State} {d : Handle} {opens : List (Option Handle)}
    (ho : s.transport.opens = some d :: opens) : (s.perform .init).handle = some d := by
  have hstart : (s.afterOpen d opens).OpenedWith d := ⟨by simp [State.afterOpen, Seq.legal], by simp [State.afterOpen], rfl⟩
  rw [perform_init_opened ho]
  obtain ⟨-, -, hd⟩ := runSeq_keeps seqStep_openedWith 11 _ hstart
  exact hd

/-- Settles O58: after reset INIT starts from the same registers, so each kind of answers is a case of its run from there. -/
theorem resetThenInitForgetsThePast : Obligations.ResetThenInitForgetsThePast := by
  intro s s' h rest hop hp hp' hx
  set r := ({ s with port := rest } : State).resetCore
  have hsame : ({ s' with port := .op h :: rest } : State).resetCore =
      ({ s with port := .op h :: rest } : State).resetCore := resetCore_eq rfl hx
  have hcoh : (r.perform .init).Coherent := perform_coherent (resetCore_coherent _) rfl
  have hin : State.InRun .init r (r.perform .init) := perform_inRun rfl
  have hmode : (r.perform .init).mode = .mode3 := hin.mode.elim id And.left
  have hexec : exec .init r = .next (r.perform .init) := exec_init rfl rfl
  refine ⟨_, r.perform .init, step_reset hp, by rw [step_reset hp', hsame], step_init_of_reset hop rfl, rfl, rfl,
    hin.port, hmode, by rw [hcoh.divisor, hmode]; rfl, ?_, ?_, ?_⟩
  -- `open` has not returned
  · intro ho
    rw [perform_init_openWaits (s := r) ho]
    exact ⟨rfl, rfl, rfl, rfl⟩
  -- `open` fails
  · intro opens ho
    rw [perform_init_openFails (s := r) ho]
    exact ⟨rfl, rfl, rfl⟩
  -- `open` returns a handle
  · intro d opens ho
    refine ⟨perform_init_handle (s := r) ho, ?_, ?_, fun confs rxs hf => ⟨?_, ?_, ?_⟩⟩
    -- `configure` has not returned
    · intro hf
      rw [perform_init_configureWaits (s := r) ho hf]
      exact ⟨rfl, rfl⟩
    -- `configure` fails
    · intro confs hf
      rw [perform_init_configureFails (s := r) ho hf]
      exact ⟨rfl, rfl⟩
    -- a transfer has not returned
    · intro hn hxs
      exact perform_init_waits (s := r) hn (transport_eq ho hf hxs)
    -- a transfer fails
    · intro w ms bad more hw hbad hxs
      obtain ⟨-, -, hfails⟩ := initStopsAtTheFirstFailedCall
      obtain ⟨hn, -⟩ := List.getElem?_eq_some_iff.mp hw
      obtain ⟨u, w', ms', hw', hu, hcs, -, -, -, -, -, -, -, htrace, -⟩ :=
        hfails r d opens confs rxs bad more rfl rfl hn hbad (transport_eq ho hf hxs)
      obtain rfl : r.perform .init = u := by simpa [hexec] using hu
      obtain ⟨rfl, -⟩ : w' = w ∧ ms' = ms := by simpa [hw] using hw'.symm
      exact ⟨hcs, htrace⟩
    -- every call is answered
    · intro more r8 hn hr8 hxs
      obtain ⟨u, r8', r9, hr8', -, hu, hcs, -, -, -, -, hres, -, -, htrace, -⟩ :=
        initRunsThePowerUpSequence r d opens confs rxs more rfl rfl hn (transport_eq ho hf hxs)
      obtain rfl : r.perform .init = u := by simpa [hexec] using hu
      obtain rfl : r8' = r8 := by simpa [hr8] using hr8'.symm
      exact ⟨hcs, htrace, by rw [hres]⟩

end Sys2Proof.Machine

/-! Proofs for the statements about the transport's answers (20_memory.md): what counts as a received frame (R43, R46), that no
answer stops the machine (R44), that answers are consumed in order (R49, R50, R52), and that an operation that waited for one
resumes where it stood (R230). -/

namespace Sys2Proof.Machine

/-! ## Frames, and a next state at every step -/

/-- Settles O41: `xferResult` matches lists of four bytes alone. -/
theorem onlyFourByteAnswersAreFrames : Obligations.OnlyFourByteAnswersAreFrames := by
  refine ⟨rfl, fun bytes => ⟨fun hlen => ?_, fun hlen => ?_⟩⟩
  · cases hx : xferResult (some bytes) with
    | none => rfl
    | some f =>
      obtain rfl : bytes = [f.b0, f.b1, f.b2, f.b3] := by simpa [answerOf] using xferResult_some hx
      exact absurd rfl hlen
  · obtain ⟨b0, b1, b2, b3, rfl⟩ := List.length_eq_four.mp hlen
    exact ⟨⟨b0, b1, b2, b3⟩, rfl, rfl⟩

/-- Settles O51: reset is always answered, and without reset a coherent controller's sequencer is legal. -/
theorem coherentMachineNeverStops : Obligations.CoherentMachineNeverStops := by
  intro s h
  by_cases hr : noReset s
  · obtain ⟨t, ht, -⟩ := step_effect h.sequencer hr
    exact ⟨t, ht⟩
  · obtain ⟨rest, hp⟩ : ∃ rest, s.port = .reset :: rest := by simpa [noReset] using hr
    exact ⟨_, step_reset hp⟩

/-! ## Answers are consumed in order -/

/-- From `s` to `t` the calls are appended to the trace, and the answers `used` are consumed in order, one for each transfer
among those calls (R49, R50, R52). -/
def Consumes (used : List (Option (List Byte))) (s t : State) : Prop :=
  ∃ es, t.trace = s.trace ++ es ∧ receivedFrames es = used.map xferResult ∧
    s.transport.xfers = used ++ t.transport.xfers

theorem receivedFrames_append (es fs : List Event) :
    receivedFrames (es ++ fs) = receivedFrames es ++ receivedFrames fs := List.filterMap_append

/-- Nothing is called. -/
theorem Consumes.of_sameBus {s t : State} (h : sameBus s t) : Consumes [] s t :=
  ⟨[], by simp [h.1], rfl, by simp [h.2]⟩

theorem Consumes.trans {u v : List (Option (List Byte))} {r s t : State} (h : Consumes u r s) (h' : Consumes v s t) :
    Consumes (u ++ v) r t := by
  obtain ⟨es, htr, hes, hx⟩ := h
  obtain ⟨es', htr', hes', hx'⟩ := h'
  exact ⟨es ++ es', by rw [htr', htr, List.append_assoc], by rw [receivedFrames_append, hes, hes', List.map_append],
    by rw [hx, hx', List.append_assoc]⟩

/-- The requests that the operation in progress has not completed yet (R16). -/
def Seq.requestsLeft : Seq → Nat
  | .idle => 0
  | .busy op k => stepCount op - max k (stepsBefore op)

/-- An operation that begins has all its requests before it. -/
theorem requestsLeft_start (op : SeqOp) : (Seq.busy op 0).requestsLeft = (expansion op).length := by
  simp [Seq.requestsLeft, stepCount]

/-- Where the sequencer stands at a request, that one is left, and one less after it. -/
theorem requestsLeft_of_cmd? {op : SeqOp} {k : Nat} {c : Cmd} (h : Seq.cmd? (.busy op k) = some c) :
    (Seq.busy op k).requestsLeft = 1 + (Seq.busy op (k + 1)).requestsLeft := by
  obtain ⟨hb, hk, -⟩ := cmd?_some h
  simp only [Seq.requestsLeft]
  omega

theorem requestsLeft_pos {q : Seq} {c : Cmd} (h : q.cmd? = some c) : 1 ≤ q.requestsLeft := by
  cases q with
  | idle => simp [Seq.cmd?] at h
  | busy op k => rw [requestsLeft_of_cmd? h]; omega

theorem requestsLeft_succ_le (op : SeqOp) (k : Nat) :
    (Seq.busy op (k + 1)).requestsLeft ≤ (Seq.busy op k).requestsLeft := by
  simp only [Seq.requestsLeft]
  omega

/-- One call that is no transfer. -/
theorem Consumes.of_call {s t : State} {e : Event} (htr : t.trace = s.trace ++ [e]) (he : e.received? = none)
    (hx : t.transport.xfers = s.transport.xfers) : Consumes [] s t :=
  ⟨[e], htr, by simp [receivedFrames, he], hx.symm⟩

/-- One answered request. -/
theorem Consumes.of_answered {s t : State} {c : Cmd} {rx : Frame} {rest : List (Option (List Byte))}
    (hx : s.transport.xfers = answerOf rx :: rest) (htr : t.trace = (s.answered c rx rest).trace)
    (htp : t.transport = (s.answered c rx rest).transport) : Consumes [answerOf rx] s t :=
  ⟨_, htr.trans (s.answered_trace c rx rest), rfl, by simp [htp, hx]⟩

/-- One step of the operation in progress consumes at most one answer, and a consumed answer leaves a request less. -/
theorem SeqEffect.consumes {s t : State} (he : SeqEffect s t) :
    ∃ used, Consumes used s t ∧ used.length ≤ 1 ∧ used.length + t.seq.requestsLeft ≤ s.seq.requestsLeft := by
  cases he with
  | hold ht => exact ⟨[], .of_sameBus (by simp [sameBus, ht]), by simp, by simp [ht]⟩
  | opened h rest hs ht =>
    subst ht
    exact ⟨[], .of_call rfl rfl rfl, by simp, by simpa [hs] using requestsLeft_succ_le .init 0⟩
  | openFailed rest hs ht => subst ht; exact ⟨[], .of_call rfl rfl rfl, by simp, by simp [Seq.requestsLeft]⟩
  | configured rest hs ht =>
    subst ht
    exact ⟨[], .of_call rfl rfl rfl, by simp, by simpa [hs] using requestsLeft_succ_le .init 1⟩
  | configureFailed rest hs ht => subst ht; exact ⟨[], .of_call rfl rfl rfl, by simp, by simp [Seq.requestsLeft]⟩
  | delayed hs ht =>
    subst ht
    exact ⟨[], .of_call rfl rfl rfl, by simp, by simpa [hs] using requestsLeft_succ_le .init 2⟩
  | waiting c hc hx ht => exact ⟨[], .of_sameBus (by simp [sameBus, ht]), by simp, by simp [ht]⟩
  | failed c a rest hc hx ha ht =>
    have hcall : Consumes [a] s t := ⟨[.xfer s.handle (frameOf c.word) none], by simp [ht],
      by simp [receivedFrames, Event.received?, ha], by simp [ht, hx]⟩
    exact ⟨[a], hcall, le_rfl, by simpa [ht, Seq.requestsLeft] using requestsLeft_pos hc⟩
  | advanced op k c rx rest hs hc hx hk ht =>
    have hleft := requestsLeft_of_cmd? (hs ▸ hc)
    exact ⟨[answerOf rx], .of_answered (c := c) hx (by simp [ht]) (by simp [ht]), le_rfl, by simp [ht, hs, hleft]⟩
  | finished op k c rx rest hs hc hx hk ht =>
    obtain ⟨-, -, -, hseq, -, htr, htp, -, -⟩ := complete_fields ((s.answered c rx rest).examine op k) op
    exact ⟨[answerOf rx], .of_answered (c := c) hx (by simp [ht, htr]) (by simp [ht, htp]), le_rfl,
      by simpa [ht, hseq, Seq.requestsLeft] using requestsLeft_pos hc⟩

/-- What a run of the sequencer from `s` keeps: a legal position, and no more answers consumed than requests completed. -/
def State.ConsumedFrom (s t : State) : Prop :=
  t.seq.legal t.cstate ∧ ∃ used, Consumes used s t ∧ used.length + t.seq.requestsLeft ≤ s.seq.requestsLeft

theorem seqStep_consumedFrom {s : State} (t : State) (h : s.ConsumedFrom t) : s.ConsumedFrom t.seqStep := by
  obtain ⟨hl, used, hu, hle⟩ := h
  cases ht : t.seq with
  | idle => rw [seqStep_idle ht]; exact ⟨hl, used, hu, hle⟩
  | busy op k =>
    have he := seqStep_effect ht hl
    obtain ⟨used', hu', -, hle'⟩ := he.consumes
    exact ⟨he.legal hl, used ++ used', hu.trans hu', by rw [List.length_append]; omega⟩

/-- An accepted operation consumes at most one answer for each of its requests (R155). -/
theorem perform_consumes {s : State} {op : SeqOp} (hl : (Seq.busy op 0).legal s.cstate) :
    ∃ used, Consumes used s (s.perform op) ∧ used.length ≤ (expansion op).length := by
  have hstart : State.ConsumedFrom { s with seq := .busy op 0 } { s with seq := .busy op 0 } :=
    ⟨hl, [], .of_sameBus ⟨rfl, rfl⟩, by simp⟩
  obtain ⟨-, used, hu, hle⟩ := runSeq_keeps seqStep_consumedFrom (stepCount op) _ hstart
  rw [requestsLeft_start] at hle
  exact ⟨used, hu, by omega⟩

theorem SeqOp.IsQuery.expansion_length_le {op : SeqOp} (h : op.IsQuery) : (expansion op).length ≤ 3 := by
  rcases h with rfl | ⟨a, rfl⟩ | rfl <;> simp [expansion]

/-- A host operation makes no transfer, at most three if it is a query, and at most nine if it is INIT accepted in UNINIT. -/
theorem HostEffect.consumes {h : HostWord} {s t : State} (he : HostEffect h s t) :
    ∃ used, Consumes used s t ∧ used.length ≤ 9 ∧ (3 < used.length → s.cstate = .uninit ∧ h.op = 0x1#4) := by
  cases he with
  | quiet hq => exact ⟨[], .of_sameBus ⟨hq.trace, hq.transport⟩, by simp, by simp⟩
  | modeChanged m hc hop hm hse hq => exact ⟨[], .of_sameBus ⟨hq.trace, hq.transport⟩, by simp, by simp⟩
  | init hc hop ht =>
    obtain ⟨used, hu, hle⟩ := perform_consumes (op := .init) (s := s) hc
    exact ⟨used, ht ▸ hu, hle, fun _ => ⟨hc, hop⟩⟩
  | query op hc hop ht =>
    obtain ⟨used, hu, hle⟩ := perform_consumes (legal_query_start hc hop)
    have h3 : (expansion op).length ≤ 3 := SeqOp.IsQuery.expansion_length_le hop
    exact ⟨used, ht ▸ hu, by omega, fun h => by omega⟩

/-- Settles O56: an operation in progress consumes at most one answer a step, an accepted one at most as many as it has
requests. -/
theorem transfersConsumeAnswersInOrder : Obligations.TransfersConsumeAnswersInOrder := by
  intro s t h hr hstep
  obtain ⟨rest, hp, -⟩ | ⟨-, he⟩ := step_cases h.sequencer hstep
  · exact absurd hp (hr rest)
  cases he with
  | resumed hb ht =>
    cases hs : s.seq with
    | idle => exact absurd hs hb
    | busy op k =>
      obtain ⟨used, ⟨es, htr, hes, hx⟩, h1, -⟩ := (seqStep_effect hs h.sequencer).consumes
      rw [← ht] at htr hx
      exact ⟨es, used, htr, hx, hes, by omega, fun h3 => by omega⟩
  | waited hi hp ht => exact ⟨[], [], by simp [ht], by simp [ht], rfl, by simp, by simp⟩
  | accepted w rest hi hp he =>
    obtain ⟨used, ⟨es, htr, hes, hx⟩, h9, h3⟩ := he.consumes
    exact ⟨es, used, htr, hx, hes, h9, fun hlt => ⟨hi, (h3 hlt).1, w, rest, hp, (h3 hlt).2⟩⟩

/-! ## An operation that waited resumes -/

section
variable (s : State) (more : List (Option (List Byte)))

theorem examine_supply (op : SeqOp) (k : Nat) : (s.supply more).examine op k = (s.examine op k).supply more := by
  cases op with
  | init =>
    simp only [State.examine]
    split <;> rfl
  | _ => rfl

theorem complete_supply (op : SeqOp) : (s.supply more).complete op = (s.complete op).supply more := by
  cases op <;> rfl

theorem present_supply (c : Cmd) : (s.supply more).present c = (s.present c).supply more := by cases c <;> rfl

/-- A step's use of the response does not look at the answers to come. -/
theorem respond_supply : (s.supply more).respond = s.respond.supply more := by
  cases hs : s.seq with
  | idle => simp [State.respond, hs]
  | busy op k =>
    by_cases hk : k + 1 = stepCount op
    · rw [respond_last hs hk, respond_last (s := s.supply more) hs hk, examine_supply, complete_supply]
    · rw [respond_advance hs hk, respond_advance (s := s.supply more) hs hk, examine_supply]
      rfl

variable {s}

/-- A request that has its answer takes it from the front, whatever comes after. -/
theorem issue_supply {a : Option (List Byte)} {rest : List (Option (List Byte))} (hx : s.transport.xfers = a :: rest)
    (c : Cmd) : (s.supply more).issue c = (s.issue c).supply more := by
  have hx' : (s.supply more).transport.xfers = a :: (rest ++ more) := by simp [hx]
  cases ha : xferResult a with
  | none =>
    rw [issue_failed hx ha, issue_failed hx' ha, present_supply]
    cases c <;> rfl
  | some rx =>
    have hreceive : (s.supply more).answered c rx (rest ++ more) = (s.answered c rx rest).supply more := by
      rw [State.answered, present_supply]
      rfl
    by_cases hc : s.seq.cmd? = some c
    · rw [issue_answered hx ha hc, issue_answered (s := s.supply more) hx' ha hc, ← respond_supply]
      exact congrArg State.respond hreceive
    · rw [issue_alone hx ha hc, issue_alone (s := s.supply more) hx' ha hc]
      exact hreceive

/-- A request that waits is as one that has not begun: it presents its word again (R130). -/
theorem issue_supply_present (c : Cmd) : ((s.present c).supply more).issue c = (s.supply more).issue c := by
  cases c <;> rfl

/-- `open` does not look at the transfers to come. -/
theorem openStep_supply : (s.supply more).openStep = s.openStep.supply more := by
  rcases ho : s.transport.opens with _ | ⟨_ | d, rest⟩
  · rw [openStep_waiting ho, openStep_waiting (s := s.supply more) ho]
  · rw [openStep_failed ho, openStep_failed (s := s.supply more) ho]
    rfl
  · rw [openStep_opened ho, openStep_opened (s := s.supply more) ho]
    rfl

/-- `configure` does not look at the transfers to come. -/
theorem configureStep_supply : (s.supply more).configureStep = s.configureStep.supply more := by
  rcases hf : s.transport.configures with _ | ⟨_ | _, rest⟩
  · rw [configureStep_waiting hf, configureStep_waiting (s := s.supply more) hf]
  · rw [configureStep_failed hf, configureStep_failed (s := s.supply more) hf]
    rfl
  · rw [configureStep_configured hf, configureStep_configured (s := s.supply more) hf]
    rfl

theorem internalStep_supply : (s.supply more).internalStep = s.internalStep.supply more := by
  rw [State.internalStep, State.internalStep, State.supply_seq]
  split
  · exact openStep_supply more
  · exact configureStep_supply more
  all_goals rfl

end

/-- At most `n` steps of the operation in progress are left. -/
def Seq.endsWithin (n : Nat) : Seq → Prop
  | .idle => True
  | .busy op k => stepCount op ≤ k + n

theorem Seq.endsWithin.succ {n : Nat} {q : Seq} (h : q.endsWithin n) : q.endsWithin (n + 1) := by
  cases q with
  | idle => trivial
  | busy op k => exact Nat.le_succ_of_le h

/-- What a step of the sequencer, wherever it stands, does about the transfers to come. -/
inductive Progress (s : State) : Prop
  /-- nothing happens: the core is idle, or `open` or `configure` has not returned -/
  | held : s.seqStep = s → Progress s
  /-- the transfer has not returned -/
  | waiting (c : Cmd) : s.seq.cmd? = some c → s.transport.xfers = [] → Progress s
  /-- the step is done with the answers there are, and is one of those left -/
  | moved : (∀ more, (s.supply more).seqStep = s.seqStep.supply more) →
      (∀ n, s.seq.endsWithin (n + 1) → s.seqStep.seq.endsWithin n) → Progress s

/-- A step that takes the sequencer from step `k` to the next one, or to idle, is one of those left. -/
theorem endsWithin_of_advance {q q' : Seq} {op : SeqOp} {k : Nat} (hq : q = .busy op k)
    (hq' : q' = .idle ∨ q' = .busy op (k + 1)) (n : Nat) (h : q.endsWithin (n + 1)) : q'.endsWithin n := by
  subst hq
  rcases hq' with rfl | rfl
  · trivial
  · simp only [Seq.endsWithin] at h ⊢
    omega

/-- An answered or failed request at its step ends the operation or advances it by one (R16, R190). -/
theorem issue_seq {s : State} {op : SeqOp} {k : Nat} {c : Cmd} {a : Option (List Byte)} {rest : List (Option (List Byte))}
    (hs : s.seq = .busy op k) (hc : s.seq.cmd? = some c) (hx : s.transport.xfers = a :: rest) :
    (s.issue c).seq = .idle ∨ (s.issue c).seq = .busy op (k + 1) := by
  cases ha : xferResult a with
  | none => rw [issue_failed hx ha]; exact .inl rfl
  | some rx =>
    rw [issue_answered hx ha hc]
    by_cases hk : k + 1 = stepCount op
    · exact .inl (by rw [respond_last (by simpa using hs) hk, State.complete_seq])
    · exact .inr (by rw [respond_advance (by simpa using hs) hk])

/-- One of INIT's own steps does nothing, ends INIT, or advances it by one (R134, R190). -/
theorem internalStep_seq {s : State} {op : SeqOp} {k : Nat} (hs : s.seq = .busy op k) :
    s.internalStep = s ∨ s.internalStep.seq = .idle ∨ s.internalStep.seq = .busy op (k + 1) := by
  rw [State.internalStep, hs]
  split
  · next h =>
    obtain ⟨rfl, rfl⟩ : op = .init ∧ k = 0 := by simpa using h
    rcases ho : s.transport.opens with _ | ⟨_ | d, rest⟩
    · exact .inl (openStep_waiting ho)
    · exact .inr (.inl (by rw [openStep_failed ho]; rfl))
    · exact .inr (.inr (by rw [openStep_opened ho]))
  · next h =>
    obtain ⟨rfl, rfl⟩ : op = .init ∧ k = 1 := by simpa using h
    rcases hf : s.transport.configures with _ | ⟨_ | _, rest⟩
    · exact .inl (configureStep_waiting hf)
    · exact .inr (.inl (by rw [configureStep_failed hf]; rfl))
    · exact .inr (.inr (by rw [configureStep_configured hf]))
  · next h =>
    obtain ⟨rfl, rfl⟩ : op = .init ∧ k = 2 := by simpa using h
    exact .inr (.inr rfl)
  all_goals exact .inl rfl

theorem seqStep_progress (s : State) : Progress s := by
  cases hs : s.seq with
  | idle => exact .held (seqStep_idle hs)
  | busy op k =>
    cases hc : s.seq.cmd? with
    | none =>
      have hstep := seqStep_of_none hc
      rcases internalStep_seq hs with hheld | hseq
      · exact .held (hstep.trans hheld)
      · refine .moved (fun more => ?_) (endsWithin_of_advance hs (by rwa [hstep]))
        rw [hstep, seqStep_of_none (s := s.supply more) hc, internalStep_supply]
    | some c =>
      cases hx : s.transport.xfers with
      | nil => exact .waiting c hc hx
      | cons a rest =>
        have hstep := seqStep_of_cmd hc
        refine .moved (fun more => ?_) (endsWithin_of_advance hs (by rw [hstep]; exact issue_seq hs hc hx))
        rw [hstep, seqStep_of_cmd (s := s.supply more) hc, issue_supply more hx]

/-- Past its last step an operation does nothing. -/
theorem seqStep_of_endsWithin_zero {s : State} (h : s.seq.endsWithin 0) : s.seqStep = s := by
  cases hs : s.seq with
  | idle => exact seqStep_idle hs
  | busy op k =>
    rw [hs] at h
    have hk : stepCount op ≤ k := h
    have hc : Seq.cmd? (.busy op k) = none :=
      Option.eq_none_iff_forall_ne_some.mpr fun c hc => absurd (cmd?_some hc).2.1 (by omega)
    rw [seqStep_of_none (hs ▸ hc), State.internalStep, hs]
    cases op with
    | init =>
      obtain ⟨j, rfl⟩ : ∃ j, k = j + 12 := Nat.exists_eq_add_of_le' hk
      rfl
    | _ => rfl

theorem seqStep_waiting {s : State} {c : Cmd} (hc : s.seq.cmd? = some c) (hx : s.transport.xfers = []) :
    s.seqStep = s.present c := (seqStep_of_cmd hc).trans (issue_waiting hx c)

/-- A run that meets a transfer which has not returned stops there, with the word presented (R230). -/
theorem runSeq_waiting {s : State} {c : Cmd} (hc : s.seq.cmd? = some c) (hx : s.transport.xfers = []) (n : Nat) :
    State.runSeq (n + 1) s = s.present c := by
  rw [State.runSeq, seqStep_waiting hc hx, runSeq_fixed (seqStep_present hc hx)]

theorem seqStep_endsWithin {n : Nat} (s : State) (h : s.seq.endsWithin n) : s.seqStep.seq.endsWithin n := by
  cases seqStep_progress s with
  | held hfix => rwa [hfix]
  | waiting c hc hx => rwa [seqStep_waiting hc hx, State.present_seq]
  | moved _ hleft => exact hleft n h.succ

/-- After as many steps as are left, nothing more happens: the operation has ended, or a call has not returned. -/
theorem runSeq_settled {n : Nat} {s : State} (h : s.seq.endsWithin n) :
    (State.runSeq n s).seqStep = State.runSeq n s := by
  induction n generalizing s with
  | zero => exact seqStep_of_endsWithin_zero h
  | succ n ih =>
    cases seqStep_progress s with
    | held hfix => rw [runSeq_fixed hfix, hfix]
    | waiting c hc hx => rw [runSeq_waiting hc hx, seqStep_present hc hx]
    | moved _ hleft => exact ih (hleft n h)

/-- Answers that arrive after the run has stopped are used as if they had been there from the start. -/
theorem runSeq_supply {n : Nat} {s : State} (h : s.seq.endsWithin n) (more : List (Option (List Byte))) :
    State.runSeq n ((State.runSeq n s).supply more) = State.runSeq n (s.supply more) := by
  induction n generalizing s with
  | zero => rfl
  | succ n ih =>
    cases seqStep_progress s with
    | held hfix => rw [runSeq_fixed hfix]
    | waiting c hc hx =>
      have hagain : ((s.present c).supply more).seqStep = (s.supply more).seqStep := by
        rw [seqStep_of_cmd (c := c) (by simpa using hc), seqStep_of_cmd (s := s.supply more) hc, issue_supply_present]
      rw [runSeq_waiting hc hx]
      exact congrArg (State.runSeq n) hagain
    | moved hsupply hleft =>
      have hn : s.seqStep.seq.endsWithin n := hleft n h
      have hrest : ((State.runSeq n s.seqStep).supply more).seq.endsWithin n := runSeq_keeps seqStep_endsWithin n _ hn
      calc State.runSeq (n + 1) ((State.runSeq n s.seqStep).supply more)
          = State.runSeq n ((State.runSeq n s.seqStep).supply more) := by rw [runSeq_succ, runSeq_settled hrest]
        _ = State.runSeq n (s.seqStep.supply more) := ih hn
        _ = State.runSeq (n + 1) (s.supply more) := by rw [State.runSeq, hsupply]

/-- Settles O57: an operation at step `k` ends within `n` steps. -/
theorem waitingOperationResumes : Obligations.WaitingOperationResumes := by
  intro s op k n more hs hn
  exact runSeq_supply (by rw [hs]; exact hn) more

end Sys2Proof.Machine

/-! SUPPORT and proofs for the encoding statements (30_encoding.md): the ignored operand bits and the masks that clear them, the
round trips of the encoder and of the codec, the command words, the accepted operation, and the reserved op codes. -/

namespace Sys2Proof

/-! ## Ignored operand bits -/

/-- A mask changes nothing in an operand that has no bit under its complement. -/
theorem and_not_eq_self {a m : Word} (h : a &&& m = 0#32) : a &&& ~~~m = a := by
  calc a &&& ~~~m = a &&& m ||| a &&& ~~~m := by rw [h, BitVec.zero_or]
    _ = a &&& (m ||| ~~~m) := BitVec.and_or_distrib_left.symm
    _ = a := by rw [BitVec.or_not_self, BitVec.and_allOnes]

/-- A masked operand has no bit under the mask's complement. -/
theorem and_not_and_eq_zero (a m : Word) : (a &&& ~~~m) &&& m = 0#32 := by
  rw [BitVec.and_assoc, BitVec.not_and_self]
  exact BitVec.and_zero

theorem keepHigh24_of_ignoredLow8Zero {a : Word} (h : ignoredLow8Zero a = true) : keepHigh24 a = a :=
  and_not_eq_self (m := 0x000000FF#32) (by simpa [ignoredLow8Zero] using h)

theorem keepLow16_of_ignoredHigh16Zero {a : Word} (h : ignoredHigh16Zero a = true) : keepLow16 a = a :=
  and_not_eq_self (m := 0xFFFF0000#32) (by simpa [ignoredHigh16Zero] using h)

@[simp] theorem ignoredLow8Zero_keepHigh24 (a : Word) : ignoredLow8Zero (keepHigh24 a) = true :=
  beq_iff_eq.mpr (and_not_and_eq_zero a 0x000000FF#32)

@[simp] theorem ignoredHigh16Zero_keepLow16 (a : Word) : ignoredHigh16Zero (keepLow16 a) = true :=
  beq_iff_eq.mpr (and_not_and_eq_zero a 0xFFFF0000#32)

/-! ## Decoder and encoder -/

@[simp] theorem encode_instr (c : Cmd) : encode c.instr = .wire c.word := by cases c <;> rfl

@[simp] theorem instr_wf (c : Cmd) : c.instr.wf = true := by cases c <;> rfl

/-- A host operation comes back from its op code, its operands as they were: where the decoder masks one, a well-formed
instruction has nothing under the mask. A command comes back from its word. -/
theorem decode_encode {i : Instr} (h : i.wf = true) : decode (encode i) = .ok i := by
  cases i with
  | crcCompute a => exact congrArg (Except.ok ∘ Instr.crcCompute) (keepHigh24_of_ignoredLow8Zero h)
  | convAccel a b => exact congrArg (Except.ok <| Instr.convAccel · b) (keepLow16_of_ignoredHigh16Zero h)
  | convTemp a => exact congrArg (Except.ok ∘ Instr.convTemp) (keepLow16_of_ignoredHigh16Zero h)
  | init | changeMode | readTemp | readAcc | readStatus | crcCheck | encodeFrame | assembleFrame | decodeFrame | sens
  | reserved0 | reserved6 | reserved7 => rfl
  | cmdReadAccX | cmdReadAccY | cmdReadAccZ | cmdReadTemp | cmdReadStatus | cmdReadMode | cmdWriteMode1 | cmdWriteMode2
  | cmdWriteMode3 | cmdWriteMode4 | cmdReadWhoami | cmdSwReset => simp [encode, decode, Cmd.instr]

/-- Each of the sixteen op codes decodes to a well-formed instruction: the masks clear the bits its row ignores. -/
theorem decodeHost_wf (h : HostWord) : (decodeHost h).wf = true := by
  unfold decodeHost
  split <;> simp [Instr.wf]

theorem decode_wf {c : Code} {i : Instr} (h : decode c = .ok i) : i.wf = true := by
  cases c with
  | host w =>
    obtain rfl : decodeHost w = i := Except.ok.inj h
    exact decodeHost_wf w
  | wire w =>
    obtain ⟨c, -, rfl⟩ := decodeWire_ok h
    exact instr_wf c

theorem encode_of_decode_wire {w : Word} {i : Instr} (h : decode (.wire w) = .ok i) : encode i = .wire w := by
  obtain ⟨c, rfl, rfl⟩ := decodeWire_ok h
  exact encode_instr c

/-- Settles O2, from the round trip of each instruction, the form of every decoded one, and that a decoded word is a command's. -/
theorem decodeInvertsEncode : Obligations.DecodeInvertsEncode :=
  ⟨fun _ => decode_encode, fun _ _ => decode_wf, fun _ _ => encode_of_decode_wire, fun h => ⟨decodeHost h, rfl⟩⟩

/-- Settles O1: every code is a closed term, which the decoder evaluates. -/
theorem specWordsDecodeToTheirInstructions : Obligations.SpecWordsDecodeToTheirInstructions :=
  ⟨rfl, rfl, rfl, rfl, rfl, rfl, rfl, rfl, rfl, rfl⟩

end Sys2Proof

namespace Sys2Proof.Machine

/-! ## Command words and frames -/

/-- The trailer of each of the twelve words is the checksum of its first three bytes, in the polynomial form of R95 (R67). -/
theorem crcCheck_word (c : Cmd) : crcCheck (frameOf c.word) = true := by
  rw [crcCheck, crcCompute_frameOf, beq_iff_eq]
  cases c <;> rfl

/-- The table finds a command by its word, so the word determines it. -/
theorem word_injective {c d : Cmd} (h : c.word = d.word) : c = d :=
  Option.some.inj (by rw [← Cmd.ofWord?_word c, h, Cmd.ofWord?_word])

/-- Settles O3: the checksums and the reserved bits word by word, and the injectivity through the table. -/
theorem commandWordsAreValidRequests : Obligations.CommandWordsAreValidRequests :=
  ⟨fun c => ⟨crcCheck_word c, rsField_word c⟩, fun _ _ => word_injective⟩

/-- ASSEMBLE joins the four neighbouring bytes that ENCODE cuts (R100, R101). -/
@[simp] theorem wordOf_frameOf (w : Word) : wordOf (frameOf w) = w := by
  have h01 : w.extractLsb' 24 8 ++ w.extractLsb' 16 8 = w.extractLsb' 16 16 :=
    BitVec.extractLsb'_append_extractLsb'_eq_extractLsb' rfl
  have h012 : w.extractLsb' 16 16 ++ w.extractLsb' 8 8 = w.extractLsb' 8 24 :=
    BitVec.extractLsb'_append_extractLsb'_eq_extractLsb' rfl
  calc wordOf (frameOf w) = w.extractLsb' 24 8 ++ w.extractLsb' 16 8 ++ w.extractLsb' 8 8 ++ w.extractLsb' 0 8 := rfl
    _ = w.extractLsb' 8 24 ++ w.extractLsb' 0 8 := by rw [h01, h012]
    _ = w := BitVec.extractLsb'_append_extractLsb' (w := 24)

/-- Above an appended byte stand the bits before it. -/
theorem extractLsb'_append_byte {v : Nat} (x : BitVec v) (b : Byte) (k len : Nat) :
    (x ++ b).extractLsb' (k + 8) len = x.extractLsb' k len :=
  BitVec.extractLsb'_append_eq_of_le (Nat.le_add_left 8 k)

/-- ENCODE cuts the four bytes that ASSEMBLE joined, each after the bytes behind it are dropped (R100, R101). -/
@[simp] theorem frameOf_wordOf (f : Frame) : frameOf (wordOf f) = f := by
  have h0 : (wordOf f).extractLsb' 24 8 = f.b0 :=
    calc _ = (f.b0 ++ f.b1 ++ f.b2).extractLsb' 16 8 := extractLsb'_append_byte _ f.b3 16 8
      _ = (f.b0 ++ f.b1).extractLsb' 8 8 := extractLsb'_append_byte _ f.b2 8 8
      _ = f.b0 := BitVec.extractLsb'_append_eq_left
  have h1 : (wordOf f).extractLsb' 16 8 = f.b1 :=
    calc _ = (f.b0 ++ f.b1 ++ f.b2).extractLsb' 8 8 := extractLsb'_append_byte _ f.b3 8 8
      _ = (f.b0 ++ f.b1).extractLsb' 0 8 := extractLsb'_append_byte _ f.b2 0 8
      _ = f.b1 := BitVec.extractLsb'_append_eq_right
  have h2 : (wordOf f).extractLsb' 8 8 = f.b2 :=
    calc _ = (f.b0 ++ f.b1 ++ f.b2).extractLsb' 0 8 := extractLsb'_append_byte _ f.b3 0 8
      _ = f.b2 := BitVec.extractLsb'_append_eq_right
  have h3 : (wordOf f).extractLsb' 0 8 = f.b3 := crcField_wordOf f
  rw [frameOf, h0, h1, h2, h3]

/-- Settles O4, from the two round trips. -/
theorem framesRoundTrip : Obligations.FramesRoundTrip := ⟨wordOf_frameOf, frameOf_wordOf⟩

/-! ## The presented operation -/

/-- Settles O5: an idle core that is not reset accepts the operation at the head of the port. -/
theorem stepRunsThePresentedOperation : Obligations.StepRunsThePresentedOperation := by
  intro s h rest i hi hp hd
  have hr : noReset s := by simp [noReset, hp]
  refine ⟨decode_wf hd, ?_⟩
  rw [step_of_idle hi hr, acceptStep, hp]
  simp only [hd, runDecoded]

/-- Settles O27: each reserved op code is `Refuse` on an idle core (R186). -/
theorem reservedCodesAreRefused : Obligations.ReservedCodesAreRefused := by
  rintro s i (rfl | rfl | rfl) hi <;> exact whenIdle_of_idle hi State.refuse

end Sys2Proof.Machine

/-! Proofs for the statements about the CRC-8 Validator (40_crc.md): the checksum in polynomial form (R95), its affine form and
the errors it detects (R96), the reference frames (R97). -/

namespace Sys2Proof.Machine

/-! ## Error detection

A good frame with the bits of an error word flipped is good again exactly when the error's syndrome is zero. The syndrome is
linear, so the single bits decide. -/

/-- What the bits of an error word contribute to the comparison of checksum and fourth byte (R96 (2)): the register they
produce from zero, and the change of the fourth byte itself. -/
def syndrome (e : Word) : Byte :=
  polyRun (frameOf e).b0 (frameOf e).b1 (frameOf e).b2 0#8 ^^^ (frameOf e).b3

/-- The syndromes of the single bits 0 to 31: those of the fourth byte, then the 24 of R96 (2), from its last to its first. -/
def bitSyndromes : List Byte :=
  [0x01#8, 0x02#8, 0x04#8, 0x08#8, 0x10#8, 0x20#8, 0x40#8, 0x80#8,
   0x1D#8, 0x3A#8, 0x74#8, 0xE8#8, 0xCD#8, 0x87#8, 0x13#8, 0x26#8,
   0x4C#8, 0x98#8, 0x2D#8, 0x5A#8, 0xB4#8, 0x75#8, 0xEA#8, 0xC9#8,
   0x8F#8, 0x03#8, 0x06#8, 0x0C#8, 0x18#8, 0x30#8, 0x60#8, 0xC0#8]

theorem frameOf_xor (v w : Word) :
    frameOf (v ^^^ w) = ⟨(frameOf v).b0 ^^^ (frameOf w).b0, (frameOf v).b1 ^^^ (frameOf w).b1,
      (frameOf v).b2 ^^^ (frameOf w).b2, (frameOf v).b3 ^^^ (frameOf w).b3⟩ := by
  simp only [frameOf, BitVec.extractLsb'_xor]

theorem crcCheck_iff (f : Frame) : crcCheck f = true ↔ crcCompute f.b0 f.b1 f.b2 = f.b3 := beq_iff_eq

theorem syndrome_xor (d e : Word) : syndrome (d ^^^ e) = syndrome d ^^^ syndrome e := by
  have h := polyRun_xor (frameOf d).b0 (frameOf d).b1 (frameOf d).b2 (frameOf e).b0 (frameOf e).b1 (frameOf e).b2 0#8 0#8
  rw [BitVec.xor_zero] at h
  simp only [syndrome, frameOf_xor, h]
  ac_rfl

/-- An error on a good frame passes exactly when its syndrome is zero. -/
theorem crcCheck_xor_iff {w : Word} (h : crcCheck (frameOf w) = true) (e : Word) :
    crcCheck (frameOf (w ^^^ e)) = true ↔ syndrome e = 0#8 := by
  rw [crcCheck_iff] at h ⊢
  rw [frameOf_xor, crcCompute_flip, h, BitVec.xor_right_inj, syndrome, BitVec.xor_eq_zero_iff]

/-- The table of R96 (2), computed. -/
theorem map_syndrome_bits : (List.range 32).map (fun i => syndrome (1#32 <<< i)) = bitSyndromes := by decide +kernel

/-- The single-bit syndromes are nonzero and all different (R96 (2)). -/
theorem nodup_zero_bitSyndromes : (0#8 :: bitSyndromes).Nodup := by decide

theorem syndrome_bit_ne_zero {i : Nat} (hi : i < 32) : syndrome (1#32 <<< i) ≠ 0#8 := by
  have hmem : syndrome (1#32 <<< i) ∈ bitSyndromes := by
    rw [← map_syndrome_bits]
    exact List.mem_map_of_mem (List.mem_range.mpr hi)
  exact ne_of_mem_of_not_mem hmem (List.nodup_cons.mp nodup_zero_bitSyndromes).1

theorem syndrome_bit_inj {i j : Nat} (hi : i < 32) (hj : j < 32) (h : syndrome (1#32 <<< i) = syndrome (1#32 <<< j)) :
    i = j := by
  have hnodup := (List.nodup_cons.mp nodup_zero_bitSyndromes).2
  rw [← map_syndrome_bits] at hnodup
  exact List.inj_on_of_nodup_map hnodup (List.mem_range.mpr hi) (List.mem_range.mpr hj) h

theorem crcCheck_flip_bit {w : Word} (h : crcCheck (frameOf w) = true) {i : Nat} (hi : i < 32) :
    crcCheck (frameOf (w ^^^ (1#32 <<< i))) = false := by
  rw [← Bool.not_eq_true, crcCheck_xor_iff h]
  exact syndrome_bit_ne_zero hi

/-- Every double-bit error is detected, in the fourth byte too. -/
theorem crcCheck_flip_two_bits {w : Word} (h : crcCheck (frameOf w) = true) {i j : Nat} (hi : i < 32) (hj : j < 32)
    (hij : i ≠ j) : crcCheck (frameOf (w ^^^ (1#32 <<< i) ^^^ (1#32 <<< j))) = false := by
  rw [BitVec.xor_assoc, ← Bool.not_eq_true, crcCheck_xor_iff h, syndrome_xor, BitVec.xor_eq_zero_iff]
  exact fun he => hij (syndrome_bit_inj hi hj he)

/-- Settles O14, from the syndromes: zero for no bit, and different for two; the fourth byte that passes is the checksum. -/
theorem checksumDetectsSingleAndDoubleBitErrors : Obligations.ChecksumDetectsSingleAndDoubleBitErrors := by
  refine ⟨fun w i hgood hi => crcCheck_flip_bit hgood hi,
    fun w i j hgood _ hij hj => crcCheck_flip_two_bits hgood (hij.trans hj) hj hij.ne, fun b0 b1 b2 => ?_⟩
  simp only [crcCheck_iff]
  exact existsUnique_eq'

/-! ## The checksum -/

theorem crcCompute_zero : crcCompute 0#8 0#8 0#8 = 0xF1#8 := by decide +kernel

/-- The checksum of three bytes is the linear part of the computation and the affine constant (R96 (1)). -/
theorem crcCompute_eq_linear_xor (x y z : Byte) : crcCompute x y z = polyRun x y z 0#8 ^^^ 0xF1#8 := by
  have h := crcCompute_flip 0#8 0#8 0#8 x y z
  rwa [BitVec.zero_xor, BitVec.zero_xor, BitVec.zero_xor, crcCompute_zero, BitVec.xor_comm] at h

/-- Settles O13: flipping bits adds the linear part, which is the checksum of the flips without the constant. -/
theorem checksumIsAffine : Obligations.ChecksumIsAffine := by
  refine ⟨crcCompute_zero, fun a b c x y z => ?_⟩
  rw [crcCompute_flip, crcCompute_eq_linear_xor x y z, BitVec.xor_assoc, BitVec.xor_assoc, BitVec.xor_self, BitVec.xor_zero]

/-- Settles O10: the source's bit-serial checksum is the polynomial form, and an idle core's result alone is written besides. -/
theorem crcComputeDeliversThePolynomialChecksum : Obligations.CrcComputeDeliversThePolynomialChecksum := by
  intro s a hi
  refine ⟨crcOfFrame (frameOf a), ?_⟩
  simp only [exec, execCrcCompute, whenIdle_of_idle hi, crcCompute_frameOf]
  rw [finish_of_idle]
  exact hi

/-! ## The reference frames -/

/-- CRC_CHECK of a good frame ends OK, on every idle core (R94). -/
theorem exec_crcCheck_ok {s : State} {a : Word} (hi : s.seq = .idle) (h : crcCheck (frameOf a) = true) :
    ∃ t, exec (.crcCheck a) s = .next t ∧ t.result.outcome = .ok := by
  obtain ⟨u, good, hgood, hexec⟩ := crcCheckComparesTheFourthByte s a hi
  have htrailer : polynomialCrc a = a.extractLsb' 0 8 := by
    rw [← crcCompute_frameOf]
    exact (crcCheck_iff _).mp h
  obtain rfl : good = true := hgood.mpr htrailer
  exact ⟨_, hexec, rfl⟩

/-- Settles O12: the three frames are valid, and a valid frame passes CRC_CHECK. -/
theorem referenceFramesAreValid : Obligations.ReferenceFramesAreValid := by
  intro w hw
  have hvalid : isValid (frameOf w) = true := by
    simp only [List.mem_cons, List.not_mem_nil, or_false] at hw
    obtain rfl | rfl | rfl := hw <;> decide +kernel
  have hgood : crcCheck (frameOf w) = true := (Bool.and_eq_true_iff.mp hvalid).1
  exact ⟨hvalid, fun s hi => exec_crcCheck_ok hi hgood⟩

end Sys2Proof.Machine

/-! Proofs for the statements about the Frame Codec (41_codec.md): its three operations on the host port (R100 to R102). -/

namespace Sys2Proof.Machine

/-! ## An operation that ends at once -/

/-- On an idle core, an operation that only ends changes the result alone. -/
theorem whenIdle_finish {s : State} (hi : s.seq = .idle) (o : OutcomeCode) (v : Option Value) :
    whenIdle s (State.finish o v) = .next { s with result := { s.result with outcome := o, value := v } } := by
  rw [whenIdle_of_idle hi, finish_of_idle hi]

/-! ## The codec -/

/-- Settles O15: the bytes of `frameOf` are the four slices of the word. -/
theorem encodeDeliversBytesMostSignificantFirst : Obligations.EncodeDeliversBytesMostSignificantFirst :=
  fun _ w hi => whenIdle_finish hi .ok (some (.bytes (frameOf w)))

/-- A byte appended to a word moves the word up by eight places. -/
theorem toNat_append_byte {n : Nat} (x : BitVec n) (b : Byte) : (x ++ b).toNat = x.toNat * 2 ^ 8 + b.toNat := by
  rw [BitVec.toNat_append, ← Nat.shiftLeft_add_eq_or_of_lt b.isLt, Nat.shiftLeft_eq]

/-- The assembled word as a number: its bytes are the digits in base 256, the first the most significant (R101). -/
theorem toNat_wordOf (f : Frame) :
    (wordOf f).toNat = f.b0.toNat * 2 ^ 24 + f.b1.toNat * 2 ^ 16 + f.b2.toNat * 2 ^ 8 + f.b3.toNat := by
  have h : (wordOf f).toNat = ((f.b0.toNat * 2 ^ 8 + f.b1.toNat) * 2 ^ 8 + f.b2.toNat) * 2 ^ 8 + f.b3.toNat := by
    rw [← toNat_append_byte, ← toNat_append_byte, ← toNat_append_byte]
    rfl
  rw [h]
  ring

/-- ASSEMBLE gives back its operand, which is the bytes already in order. -/
theorem exec_assembleFrame {s : State} (hi : s.seq = .idle) (a : Word) :
    exec (.assembleFrame a) s = .next { s with result := { s.result with outcome := .ok, value := some (.word a) } } := by
  rw [exec, execAssemble, whenIdle_finish hi, wordOf_frameOf]

/-- Settles O16: the delivered word is the four bytes appended, whose value is the sum of theirs by place. -/
theorem assembleJoinsBytesMostSignificantFirst : Obligations.AssembleJoinsBytesMostSignificantFirst :=
  fun _ b0 b1 b2 b3 hi => ⟨wordOf ⟨b0, b1, b2, b3⟩, exec_assembleFrame hi _, toNat_wordOf ⟨b0, b1, b2, b3⟩⟩

/-- Settles O17: the reassembled word is the operand, and the three fields are its slices. -/
theorem decodeExtractsStatusDataAndTrailer : Obligations.DecodeExtractsStatusDataAndTrailer := by
  intro s w hi
  rw [exec, execDecode, wordOf_frameOf]
  exact whenIdle_finish hi .ok (some (.fields (rsField w) (dataField w) (crcField w)))

end Sys2Proof.Machine

/-! Proofs for the statements about the Unit Converter (42_convert.md): the roundings `rhaz` (R115) and `rne32` (R120), the
temperature's range and steps (R116), and what CONV_ACCEL and CONV_TEMP deliver (R111, R114, R118, R119). -/

namespace Sys2Proof.Machine

/-! ## Nearest integers

An integer within one half of a number is nearest to it, and another one is as near only in a tie. -/

/-- Another integer is at least one half away from a number of which `r` is within one half. -/
theorem half_le_of_near {x : Rat} {r n : Int} (h : |x - r| ≤ 1 / 2) (hne : n ≠ r) : 1 / 2 ≤ |x - n| := by
  have hgap : (1 : Rat) ≤ |(n : Rat) - r| := by exact_mod_cast Int.one_le_abs (sub_ne_zero.mpr hne)
  have htriangle := abs_sub_le (n : Rat) x r
  rw [abs_sub_comm (n : Rat) x] at htriangle
  linarith

theorem nearest_of_near {x : Rat} {r : Int} (h : |x - r| ≤ 1 / 2) (n : Int) : |x - r| ≤ |x - n| := by
  by_cases hne : n = r
  · rw [hne]
  · exact h.trans (half_le_of_near h hne)

theorem eq_or_tie_of_near {x : Rat} {r n : Int} (h : |x - r| ≤ 1 / 2) (heq : |x - n| = |x - r|) :
    n = r ∨ |x - r| = 1 / 2 := by
  by_cases hne : n = r
  · exact .inl hne
  · exact .inr (le_antisymm h (heq ▸ half_le_of_near h hne))

/-! ## `rhaz` -/

/-- In a tie `rhaz` is farther from zero than the number (R115). -/
theorem abs_rhaz_of_tie {q : Rat} (h : |q - (rhaz q : Rat)| = 1 / 2) : |(rhaz q : Rat)| = |q| + 1 / 2 := by
  rcases le_or_gt 0 q with hq | hq
  · obtain ⟨hle, hlt⟩ := floor_add_half_bounds q
    rw [rhaz_of_nonneg hq] at h ⊢
    rw [abs_of_nonneg hq]
    rcases eq_or_eq_neg_of_abs_eq h with h | h
    · linarith
    · rw [abs_of_nonneg (by linarith)]; linarith
  · obtain ⟨hle, hlt⟩ := floor_add_half_bounds (-q)
    rw [rhaz_of_neg hq, Int.cast_neg] at h ⊢
    rw [abs_of_neg hq, abs_neg]
    rcases eq_or_eq_neg_of_abs_eq h with h | h
    · rw [abs_of_nonneg (by linarith)]; linarith
    · linarith

/-- The closed form of R115. -/
theorem rhaz_eq_sign_mul_floor (q : Rat) : rhaz q = (SignType.sign q : Int) * (|q| + 1 / 2).floor := by
  rcases lt_trichotomy q 0 with hq | rfl | hq
  · rw [rhaz_of_neg hq, sign_neg hq, abs_of_neg hq]; simp
  · decide +kernel
  · rw [rhaz_of_nonneg hq.le, sign_pos hq, abs_of_pos hq]; simp

/-- Settles O22: `rhaz` is within one half, and in a tie its distance from zero is the greatest that the tie allows. -/
theorem rhazRoundsHalfAwayFromZero : Obligations.RhazRoundsHalfAwayFromZero := by
  intro q
  refine ⟨nearest_of_near (rhaz_near q), fun n hn => ?_, rhaz_eq_sign_mul_floor q⟩
  obtain rfl | htie := eq_or_tie_of_near (rhaz_near q) hn
  · exact le_rfl
  · have htriangle := abs_sub_abs_le_abs_sub (n : Rat) q
    rw [abs_sub_comm (n : Rat) q] at htriangle
    linarith [abs_rhaz_of_tie htie]

/-! ## The temperature -/

/-- 189 is odd, so the exact temperature is never half a hundredth away from the delivered one. -/
theorem convTemp_bounds (raw : Half) :
    189 * convTemp raw - 94 ≤ 1000 * (raw.toNat : Int) - 5162535 ∧
      1000 * (raw.toNat : Int) - 5162535 ≤ 189 * convTemp raw + 94 := by
  have hnear := convTemp_near raw
  have habs : |1000 * (raw.toNat : Int) - 5162535 - 189 * convTemp raw| ≤ 94 := by omega
  obtain ⟨hlow, hhigh⟩ := abs_le.mp habs
  constructor <;> linarith

/-- Settles O23: the delivered temperature is within 94 of 189 parts of the exact one, which rises by 1000 of them. -/
theorem temperatureIsMonotoneWithoutTies : Obligations.TemperatureIsMonotoneWithoutTies := by
  refine ⟨fun raw n => by omega, fun r r' hsucc => ?_, ?_, ?_, fun r => ?_⟩
  · have hr := convTemp_bounds r
    have hr' := convTemp_bounds r'
    omega
  · have h := convTemp_bounds 0#16
    simp only [BitVec.toNat_ofNat] at h
    omega
  · have h := convTemp_bounds 0xFFFF#16
    simp only [BitVec.toNat_ofNat] at h
    omega
  · have h := convTemp_bounds r
    have hlt := r.isLt
    omega

/-! ## The operations -/

theorem exec_convTemp {s : State} (hi : s.seq = .idle) (a : Word) :
    exec (.convTemp a) s = .next { s with
      result := { s.result with outcome := .ok, value := some (tempValue (rawOperand a)) } } :=
  whenIdle_finish hi .ok (some (tempValue (rawOperand a)))

theorem exec_convAccel {s : State} (hi : s.seq = .idle) (a : Word) {b : Word} (hb : b ≠ 0#32) :
    exec (.convAccel a b) s = .next { s with
      result := { s.result with outcome := .ok, value := some (accValue (rawOperand a) b) } } := by
  simp only [exec, execConvAccel, whenIdle_of_idle hi, if_neg hb, finish_of_idle hi]

/-- A zero divisor is refused (R113). -/
theorem exec_convAccel_zero {s : State} (hi : s.seq = .idle) (a : Word) : exec (.convAccel a 0#32) s = .next s.refuse := by
  rw [exec, execConvAccel, whenIdle_of_idle hi, if_pos rfl]

/-- The quotient by a nonzero divisor is exact (R111). -/
theorem convAccel_mul (raw : Half) {div : Word} (h : div ≠ 0#32) : convAccel raw div * (div.toInt : Rat) = raw.toNat := by
  have hne : (div.toInt : Rat) ≠ 0 := by
    rw [Int.cast_ne_zero, ← BitVec.toInt_zero (w := 32)]
    exact fun heq => h (BitVec.eq_of_toInt_eq heq)
  rw [convAccel, div_mul_cancel₀ _ hne]

/-- Settles O20: the delivered quotient is exact, and a zero divisor is refused. -/
theorem convAccelDividesExactly : Obligations.ConvAccelDividesExactly := by
  intro s a b hi
  refine ⟨fun hb => ?_, ?_⟩
  · exact ⟨convAccel (rawOperand a) b, rne32 (convAccel (rawOperand a) b), convAccel_mul _ hb, exec_convAccel hi a hb⟩
  · rintro rfl
    exact exec_convAccel_zero hi a

/-- Settles O21: the two forms of R114 are one number, rounded. -/
theorem convTempRoundsTheExactTemperature : Obligations.ConvTempRoundsTheExactTemperature := fun _ a hi =>
  ⟨convTemp (rawOperand a), rne32 ((convTemp (rawOperand a) : Rat) / 100), convTemp_eq (rawOperand a), rfl, exec_convTemp hi a⟩

/-- Settles O25: `accValue` and `tempValue` pair the number with its image. -/
theorem convertedValuesCarryTheirImages : Obligations.ConvertedValuesCarryTheirImages := fun _ a _ hi =>
  ⟨fun hb => ⟨_, _, exec_convAccel hi a hb, rfl⟩, ⟨_, _, exec_convTemp hi a, rfl⟩⟩

/-! ## The significand of `rne32` -/

/-- `r` is an integer nearest to `x`, and even in a tie (the rounding of R120). -/
structure RoundsToEven (x : Rat) (r : Nat) : Prop where
  near : |x - r| ≤ 1 / 2
  even_of_tie : |x - r| = 1 / 2 → r % 2 = 0

/-- The rounded quotient times the divisor, against the dividend: the remainder decides which way it goes. -/
theorem rneDiv_bounds (N : Nat) {D : Nat} (hD : 0 < D) :
    2 * (D * rneDiv N D) ≤ 2 * N + D ∧ 2 * N ≤ 2 * (D * rneDiv N D) + D ∧
      (2 * (D * rneDiv N D) = 2 * N + D ∨ 2 * N = 2 * (D * rneDiv N D) + D → rneDiv N D % 2 = 0) := by
  have hdiv := Nat.div_add_mod N D
  have hmod := Nat.mod_lt N hD
  by_cases hup : D < 2 * (N % D) ∨ (2 * (N % D) = D ∧ N / D % 2 = 1)
  · have hr : rneDiv N D = N / D + 1 := if_pos hup
    rw [hr, mul_add]
    omega
  · have hr : rneDiv N D = N / D := if_neg hup
    rw [hr]
    omega

theorem rneDiv_roundsToEven (N : Nat) {D : Nat} (hD : 0 < D) : RoundsToEven ((N : Rat) / D) (rneDiv N D) := by
  have hpos : (0 : Rat) < D := by exact_mod_cast hD
  obtain ⟨hle, hge, htie⟩ := rneDiv_bounds N hD
  generalize rneDiv N D = r at hle hge htie ⊢
  have hle' : 2 * ((D : Rat) * r) ≤ 2 * N + D := by exact_mod_cast hle
  have hge' : 2 * (N : Rat) ≤ 2 * (D * r) + D := by exact_mod_cast hge
  have hdist : |(N : Rat) / D - r| = |(N : Rat) - D * r| / D := by
    rw [← abs_of_pos hpos, ← abs_div, abs_of_pos hpos, sub_div, mul_div_cancel_left₀ _ hpos.ne']
  refine ⟨?_, fun heq => htie ?_⟩
  · rw [hdist, div_le_iff₀ hpos, abs_le]
    constructor <;> linarith
  · rw [hdist, div_eq_iff hpos.ne'] at heq
    rcases eq_or_eq_neg_of_abs_eq heq with h | h
    · have hcast : 2 * (N : Rat) = 2 * (D * r) + D := by linarith
      exact .inr (by exact_mod_cast hcast)
    · have hcast : 2 * ((D : Rat) * r) = 2 * N + D := by linarith
      exact .inl (by exact_mod_cast hcast)

theorem RoundsToEven.le_of_le {x : Rat} {r a : Nat} (h : RoundsToEven x r) (ha : (a : Rat) ≤ x) : a ≤ r := by
  by_contra hlt
  have hcast : (r : Rat) + 1 ≤ a := by exact_mod_cast not_le.mp hlt
  linarith [(abs_le.mp h.near).2]

theorem RoundsToEven.ge_of_ge {x : Rat} {r a : Nat} (h : RoundsToEven x r) (ha : x ≤ a) : r ≤ a := by
  by_contra hlt
  have hcast : (a : Rat) + 1 ≤ r := by exact_mod_cast not_le.mp hlt
  linarith [(abs_le.mp h.near).1]

/-- The significand rounds the number in units of `2 ^ (e - 23)`. -/
theorem significand32_roundsToEven (n : Nat) {d : Nat} (hd : 0 < d) (e : Int) :
    RoundsToEven ((n : Rat) / d / 2 ^ (e - 23)) (significand32 n d e) := by
  by_cases he : e ≤ 23
  · obtain ⟨k, rfl⟩ : ∃ k : Nat, e = 23 - k := ⟨(23 - e).toNat, by omega⟩
    have hx : (n : Rat) / d / 2 ^ (23 - (k : Int) - 23) = ((n * 2 ^ k : Nat) : Rat) / d := by
      rw [sub_sub_cancel_left, zpow_neg, zpow_natCast]
      push_cast
      field_simp
    rw [hx, significand32, if_pos he, sub_sub_cancel, Int.toNat_natCast]
    exact rneDiv_roundsToEven _ hd
  · obtain ⟨k, rfl⟩ : ∃ k : Nat, e = k + 23 := ⟨(e - 23).toNat, by omega⟩
    have hx : (n : Rat) / d / 2 ^ ((k : Int) + 23 - 23) = (n : Rat) / (d * 2 ^ k : Nat) := by
      rw [add_sub_cancel_right, zpow_natCast, div_div]
      push_cast
      rfl
    rw [hx, significand32, if_neg he, add_sub_cancel_right, Int.toNat_natCast]
    exact rneDiv_roundsToEven _ (by positivity)

/-! ## The exponent of `rne32` -/

theorem powLe_iff (n : Nat) {d : Nat} (hd : 0 < d) (e : Int) : powLe n d e = true ↔ (2 : Rat) ^ e ≤ n / d := by
  have hpos : (0 : Rat) < d := by exact_mod_cast hd
  rw [le_div_iff₀ hpos, mul_comm]
  by_cases he : 0 ≤ e
  · obtain ⟨k, rfl⟩ := Int.eq_ofNat_of_zero_le he
    simp only [powLe, if_pos he, decide_eq_true_eq, Int.toNat_natCast, zpow_natCast]
    exact_mod_cast Iff.rfl
  · obtain ⟨k, rfl⟩ : ∃ k : Nat, e = -(k : Int) := ⟨(-e).toNat, by omega⟩
    simp only [powLe, if_neg he, decide_eq_true_eq, neg_neg, Int.toNat_natCast, zpow_neg, zpow_natCast]
    rw [mul_inv_le_iff₀ (by positivity)]
    exact_mod_cast Iff.rfl

/-- A positive natural number lies between the powers of two around its `log2`. -/
theorem log2_bounds {n : Nat} (hn : n ≠ 0) : (2 : Rat) ^ (n.log2 : Int) ≤ n ∧ (n : Rat) < 2 ^ ((n.log2 : Int) + 1) := by
  constructor
  · rw [zpow_natCast]
    exact_mod_cast Nat.log2_self_le hn
  · have h : n < 2 ^ (n.log2 + 1) := Nat.lt_log2_self
    exact_mod_cast h

/-- The difference of the `log2`s is the exponent of the quotient, or one too great. -/
theorem log2_sub_bounds {n d : Nat} (hn : n ≠ 0) (hd : d ≠ 0) :
    (2 : Rat) ^ ((n.log2 : Int) - d.log2 - 1) ≤ n / d ∧ (n : Rat) / d < 2 ^ ((n.log2 : Int) - d.log2 + 1) := by
  obtain ⟨hnl, hnu⟩ := log2_bounds hn
  obtain ⟨hdl, hdu⟩ := log2_bounds hd
  have hpos : (0 : Rat) < d := by positivity
  constructor
  · rw [sub_sub, zpow_sub₀ two_ne_zero]
    exact div_le_div₀ (by positivity) hnl hpos hdu.le
  · rw [sub_add_eq_add_sub, zpow_sub₀ two_ne_zero]
    exact div_lt_div₀ hnu hdl (by positivity) (by positivity)

/-- In the normal range the exponent is `⌊log₂ (n / d)⌋`. -/
theorem exponent32_bounds {n d : Nat} (hd : 0 < d) (hlow : (2 : Rat) ^ (-126 : Int) ≤ n / d) :
    -126 ≤ exponent32 n d ∧ (2 : Rat) ^ exponent32 n d ≤ n / d ∧ (n : Rat) / d < 2 ^ (exponent32 n d + 1) := by
  have hn : n ≠ 0 := by
    rintro rfl
    norm_num at hlow
  obtain ⟨hl, hu⟩ := log2_sub_bounds hn hd.ne'
  have hpow := powLe_iff n hd ((n.log2 : Int) - d.log2)
  simp only [exponent32]
  generalize (n.log2 : Int) - d.log2 = e at hl hu hpow ⊢
  obtain ⟨f, hf, hle, hlt⟩ : ∃ f, (if powLe n d e then e else e - 1) = f ∧
      (2 : Rat) ^ f ≤ n / d ∧ (n : Rat) / d < 2 ^ (f + 1) := by
    by_cases h : powLe n d e = true
    · exact ⟨e, if_pos h, hpow.mp h, hu⟩
    · refine ⟨e - 1, if_neg h, hl, ?_⟩
      rw [sub_add_cancel]
      exact not_le.mp (mt hpow.mpr h)
  have hmin : -126 < f + 1 := (zpow_lt_zpow_iff_right₀ one_lt_two).mp (hlow.trans_lt hlt)
  rw [hf, max_eq_right (by omega)]
  exact ⟨by omega, hle, hlt⟩

/-! ## The number of a pattern -/

/-- The significand of a pattern: its fraction, with the leading one of a normal number. -/
def significandField (w : Word) : Nat :=
  if (w.extractLsb' 23 8).toNat = 0 then (w.extractLsb' 0 23).toNat else 2 ^ 23 + (w.extractLsb' 0 23).toNat

/-- The exponent of the unit in which a pattern counts. -/
def unitExponent (w : Word) : Int := (max (w.extractLsb' 23 8).toNat 1 : Nat) - 150

theorem significandField_lt (w : Word) : significandField w < 2 ^ 24 := by
  have hf := (w.extractLsb' 0 23).isLt
  unfold significandField
  split <;> omega

theorem f32Value_eq (w : Word) :
    f32Value w = if w.msb then -((significandField w : Rat) * 2 ^ unitExponent w)
      else (significandField w : Rat) * 2 ^ unitExponent w := by
  have hv : (if 0 ≤ unitExponent w then (significandField w : Rat) * (2 ^ (unitExponent w).toNat : Nat)
      else (significandField w : Rat) / (2 ^ (-unitExponent w).toNat : Nat)) =
      (significandField w : Rat) * 2 ^ unitExponent w := by
    generalize unitExponent w = k
    by_cases hk : 0 ≤ k
    · obtain ⟨j, rfl⟩ := Int.eq_ofNat_of_zero_le hk
      simp
    · obtain ⟨j, rfl⟩ : ∃ j : Nat, k = -(j : Int) := ⟨(-k).toNat, by omega⟩
      rw [if_neg hk]
      simp [div_eq_mul_inv]
  rw [← hv]
  rfl

/-- The fields of a pattern given as a number. -/
theorem fields_ofNat (p : Nat) :
    ((BitVec.ofNat 32 p).extractLsb' 23 8).toNat = p / 2 ^ 23 % 2 ^ 8 ∧
      ((BitVec.ofNat 32 p).extractLsb' 0 23).toNat = p % 2 ^ 23 ∧
      (BitVec.ofNat 32 p).msb = decide (2 ^ 31 ≤ p % 2 ^ 32) := by
  refine ⟨?_, ?_, ?_⟩
  · rw [BitVec.extractLsb'_toNat, BitVec.toNat_ofNat, Nat.shiftRight_eq_div_pow]
    omega
  · rw [BitVec.extractLsb'_toNat, BitVec.toNat_ofNat, Nat.shiftRight_eq_div_pow]
    omega
  · rw [BitVec.msb_eq_decide, BitVec.toNat_ofNat]

/-- The sign bit negates (R120). -/
theorem f32Value_ofNat_sign {p : Nat} (hp : p < 2 ^ 31) :
    f32Value (BitVec.ofNat 32 (2 ^ 31 + p)) = -f32Value (BitVec.ofNat 32 p) := by
  obtain ⟨he, hf, hmsb⟩ := fields_ofNat p
  obtain ⟨he', hf', hmsb'⟩ := fields_ofNat (2 ^ 31 + p)
  rw [show (2 ^ 31 + p) / 2 ^ 23 % 2 ^ 8 = p / 2 ^ 23 % 2 ^ 8 by omega, ← he] at he'
  rw [show (2 ^ 31 + p) % 2 ^ 23 = p % 2 ^ 23 by omega, ← hf] at hf'
  rw [decide_eq_false (by omega)] at hmsb
  rw [decide_eq_true (by omega)] at hmsb'
  rw [f32Value_eq, f32Value_eq, hmsb, hmsb', significandField, unitExponent, he', hf']
  rfl

/-- A normal pattern: exponent field `E` and fraction `f`. -/
theorem f32Value_ofNat_normal {E f : Nat} (hE : 0 < E) (hE' : E < 255) (hf : f < 2 ^ 23) :
    f32Value (BitVec.ofNat 32 (E * 2 ^ 23 + f)) = ((2 ^ 23 + f : Nat) : Rat) * 2 ^ ((E : Int) - 150) := by
  obtain ⟨he, hf', hmsb⟩ := fields_ofNat (E * 2 ^ 23 + f)
  rw [show (E * 2 ^ 23 + f) / 2 ^ 23 % 2 ^ 8 = E by omega] at he
  rw [show (E * 2 ^ 23 + f) % 2 ^ 23 = f by omega] at hf'
  rw [decide_eq_false (by omega)] at hmsb
  rw [f32Value_eq, hmsb, significandField, unitExponent, he, hf', if_neg hE.ne', max_eq_left (by omega)]
  rfl

/-- The exponent and the significand added, as `magnitude32` does: a significand of `2 ^ 24` carries into the next binade. -/
theorem f32Value_ofNat_carry {e : Int} {m : Nat} (he : -126 ≤ e) (hm : 2 ^ 23 ≤ m) (hm' : m ≤ 2 ^ 24)
    (hfinite : (e + 126).toNat * 2 ^ 23 + m < 0x7F800000) :
    f32Value (BitVec.ofNat 32 ((e + 126).toNat * 2 ^ 23 + m)) = (m : Rat) * 2 ^ (e - 23) := by
  obtain ⟨E, rfl⟩ : ∃ E : Nat, e = E - 126 := ⟨(e + 126).toNat, by omega⟩
  rw [sub_add_cancel, Int.toNat_natCast] at hfinite ⊢
  rcases hm'.lt_or_eq with hlt | rfl
  · obtain ⟨f, rfl⟩ := Nat.exists_eq_add_of_le hm
    rw [show E * 2 ^ 23 + (2 ^ 23 + f) = (E + 1) * 2 ^ 23 + f by ring,
      f32Value_ofNat_normal (by omega) (by omega) (by omega)]
    congr 2
    push_cast
    ring
  · rw [show E * 2 ^ 23 + 2 ^ 24 = (E + 2) * 2 ^ 23 + 0 by ring,
      f32Value_ofNat_normal (by omega) (by omega) (by omega),
      show (E : Int) - 126 - 23 = ((E + 2 : Nat) : Int) - 150 - 1 by push_cast; ring, zpow_sub_one₀ two_ne_zero]
    push_cast
    ring

/-! ## The nearest pattern

In the binade of `q`, from `2 ^ e`, patterns are whole numbers of units `2 ^ (e - 23)`. A pattern that is not a whole number of
these units is below `2 ^ e`, which is one itself, and so is farther from `q` than `2 ^ e`. -/

/-- A whole number of the units of exponent `e`, or nearer to zero than `2 ^ e`. -/
def WholeUnitsOrBelow (e : Int) (v : Rat) : Prop := (∃ k : Int, v = k * 2 ^ (e - 23)) ∨ |v| < 2 ^ e

theorem WholeUnitsOrBelow.neg {e : Int} {v : Rat} (h : WholeUnitsOrBelow e v) : WholeUnitsOrBelow e (-v) := by
  obtain ⟨k, rfl⟩ | h := h
  · exact .inl ⟨-k, by push_cast; ring⟩
  · exact .inr (by rwa [abs_neg])

theorem f32Value_wholeUnitsOrBelow (w : Word) (e : Int) : WholeUnitsOrBelow e (f32Value w) := by
  have hmag : WholeUnitsOrBelow e ((significandField w : Rat) * 2 ^ unitExponent w) := by
    rcases le_or_gt (e - 23) (unitExponent w) with h | h
    · obtain ⟨j, hj⟩ := Int.eq_ofNat_of_zero_le (sub_nonneg.mpr h)
      refine .inl ⟨significandField w * 2 ^ j, ?_⟩
      rw [← sub_add_cancel (unitExponent w) (e - 23), hj, zpow_add₀ two_ne_zero, zpow_natCast]
      push_cast
      ring
    · refine .inr ?_
      rw [abs_of_nonneg (by positivity)]
      have hlt : (significandField w : Rat) < 2 ^ (24 : Int) := by exact_mod_cast significandField_lt w
      calc (significandField w : Rat) * 2 ^ unitExponent w
          < 2 ^ (24 : Int) * 2 ^ unitExponent w := by gcongr
        _ = 2 ^ (24 + unitExponent w) := (zpow_add₀ two_ne_zero _ _).symm
        _ ≤ 2 ^ e := zpow_le_zpow_right₀ one_le_two (by omega)
  rw [f32Value_eq]
  split
  · exact hmag.neg
  · exact hmag

/-- A rounded significand gives a nearest number among those, and an even one where another is as near. -/
theorem nearest_of_roundsToEven {q v : Rat} {e : Int} {m : Nat} (hlow : (2 : Rat) ^ e ≤ q)
    (hm : RoundsToEven (q / 2 ^ (e - 23)) m) (hv : WholeUnitsOrBelow e v) :
    |(m : Rat) * 2 ^ (e - 23) - q| ≤ |v - q| ∧
      (|v - q| = |(m : Rat) * 2 ^ (e - 23) - q| → v = m * 2 ^ (e - 23) ∨ m % 2 = 0) := by
  have hbinade : (2 : Rat) ^ e = (2 ^ 23 : Int) * 2 ^ (e - 23) := by
    rw [zpow_sub₀ two_ne_zero]
    norm_num
    ring
  have hunit : (0 : Rat) < 2 ^ (e - 23) := by positivity
  unfold WholeUnitsOrBelow at hv
  generalize (2 : Rat) ^ (e - 23) = u at *
  have hdist (k : Rat) : |k * u - q| = |q / u - k| * u := by
    rw [← abs_of_pos hunit, ← abs_mul, abs_of_pos hunit, sub_mul, div_mul_cancel₀ _ hunit.ne', abs_sub_comm]
  have hnear : |q / u - ((m : Int) : Rat)| ≤ 1 / 2 := hm.near
  have hnearest (k : Int) : |(m : Rat) * u - q| ≤ |(k : Rat) * u - q| := by
    rw [hdist, hdist]
    exact mul_le_mul_of_nonneg_right (nearest_of_near hnear k) hunit.le
  obtain ⟨k, rfl⟩ | hbelow := hv
  · refine ⟨hnearest k, fun heq => ?_⟩
    rw [hdist, hdist, mul_left_inj' hunit.ne'] at heq
    obtain rfl | htie := eq_or_tie_of_near hnear heq
    · exact .inl rfl
    · exact .inr (hm.even_of_tie htie)
  · have hfar : |((2 ^ 23 : Int) : Rat) * u - q| < |v - q| := by
      have hlt := (abs_lt.mp hbelow).2
      rw [← hbinade, abs_of_nonpos (by linarith), abs_of_neg (by linarith)]
      linarith
    have hlt := (hnearest _).trans_lt hfar
    exact ⟨hlt.le, fun heq => absurd heq hlt.ne'⟩

/-- A significand of the normal range has 24 bits, or is `2 ^ 24`. -/
theorem significand32_bounds {n d : Nat} (hd : 0 < d) {e : Int} (hle : (2 : Rat) ^ e ≤ n / d)
    (hlt : (n : Rat) / d < 2 ^ (e + 1)) : 2 ^ 23 ≤ significand32 n d e ∧ significand32 n d e ≤ 2 ^ 24 := by
  have hround := significand32_roundsToEven n hd e
  have hunit : (0 : Rat) < 2 ^ (e - 23) := by positivity
  have hscale (k : Nat) : ((2 ^ k : Nat) : Rat) * 2 ^ (e - 23) = 2 ^ (k + (e - 23)) := by
    rw [zpow_add₀ two_ne_zero, zpow_natCast]
    push_cast
    rfl
  constructor
  · refine hround.le_of_le ?_
    rw [le_div_iff₀ hunit, hscale]
    exact (zpow_le_zpow_right₀ one_le_two (by omega)).trans hle
  · refine hround.ge_of_ge ?_
    rw [div_le_iff₀ hunit, hscale]
    exact hlt.le.trans (zpow_le_zpow_right₀ one_le_two (by omega))

/-- Up to the greatest finite number the exponent is at most 127, and with it the significand does not carry. -/
theorem finite_of_le {n d : Nat} (hd : 0 < d) (hhigh : (n : Rat) / d ≤ 2 ^ 128 - 2 ^ 104) {e : Int}
    (hle : (2 : Rat) ^ e ≤ n / d) : e ≤ 127 ∧ (e = 127 → significand32 n d e < 2 ^ 24) := by
  constructor
  · have hlt : (2 : Rat) ^ e < 2 ^ (128 : Int) := by
      refine (hle.trans hhigh).trans_lt ?_
      norm_num
    have hexp := (zpow_lt_zpow_iff_right₀ one_lt_two).mp hlt
    omega
  · rintro rfl
    refine Nat.lt_of_le_pred (by norm_num) ((significand32_roundsToEven n hd 127).ge_of_ge ?_)
    rw [div_le_iff₀ (by positivity)]
    refine hhigh.trans (le_of_eq ?_)
    norm_num

/-- In the normal range `magnitude32` is finite, so its bound at infinity does not act. -/
theorem magnitude32_eq {n d : Nat} {e : Int} (hexp : exponent32 n d = e) (hmin : -126 ≤ e)
    (hm : significand32 n d e ≤ 2 ^ 24) (hmax : e ≤ 127) (htop : e = 127 → significand32 n d e < 2 ^ 24) :
    (e + 126).toNat * 2 ^ 23 + significand32 n d e < 0x7F800000 ∧
      magnitude32 n d = (e + 126).toNat * 2 ^ 23 + significand32 n d e := by
  have hfinite : (e + 126).toNat * 2 ^ 23 + significand32 n d e < 0x7F800000 := by
    generalize significand32 n d e = m at *
    omega
  refine ⟨hfinite, ?_⟩
  simp only [magnitude32, hexp]
  exact min_eq_left hfinite.le

/-- The pattern of a magnitude of the normal range is finite and nearest, and even where another number is as near. -/
theorem magnitude32_nearest {n d : Nat} (hd : 0 < d) (hlow : (2 : Rat) ^ (-126 : Int) ≤ n / d)
    (hhigh : (n : Rat) / d ≤ 2 ^ 128 - 2 ^ 104) {v : Rat} (hv : ∀ e, WholeUnitsOrBelow e v) :
    magnitude32 n d < 2 ^ 31 ∧
      |f32Value (BitVec.ofNat 32 (magnitude32 n d)) - n / d| ≤ |v - n / d| ∧
      (|v - n / d| = |f32Value (BitVec.ofNat 32 (magnitude32 n d)) - n / d| →
        v = f32Value (BitVec.ofNat 32 (magnitude32 n d)) ∨ magnitude32 n d % 2 = 0) := by
  obtain ⟨hmin, hle, hlt⟩ := exponent32_bounds hd hlow
  obtain ⟨hm, hm'⟩ := significand32_bounds hd hle hlt
  obtain ⟨hmax, htop⟩ := finite_of_le hd hhigh hle
  obtain ⟨hfinite, hmag⟩ := magnitude32_eq rfl hmin hm' hmax htop
  obtain ⟨hnearest, htie⟩ := nearest_of_roundsToEven hle (significand32_roundsToEven n hd _) (hv _)
  rw [hmag, f32Value_ofNat_carry hmin hm hm' hfinite]
  exact ⟨by omega, hnearest, fun heq => (htie heq).imp_right fun heven => by omega⟩

theorem rne32_of_pos {q : Rat} (h : 0 < q) : rne32 q = BitVec.ofNat 32 (magnitude32 q.num.natAbs q.den) := by
  rw [rne32, if_neg (Rat.num_ne_zero.mpr h.ne'), if_neg h.not_gt]

theorem rne32_of_neg {q : Rat} (h : q < 0) : rne32 q = BitVec.ofNat 32 (2 ^ 31 + magnitude32 q.num.natAbs q.den) := by
  rw [rne32, if_neg (Rat.num_ne_zero.mpr h.ne), if_pos h]

theorem getLsbD_zero_of_even {p : Nat} (h : p % 2 = 0) : (BitVec.ofNat 32 p).getLsbD 0 = false := by
  rw [BitVec.getLsbD, BitVec.toNat_ofNat, Nat.testBit_zero]
  exact decide_eq_false (by omega)

theorem abs_eq_natAbs_num_div_den (q : Rat) : |q| = (q.num.natAbs : Rat) / q.den := by
  rw [Nat.cast_natAbs, Int.cast_abs]
  calc |q| = |(q.num : Rat) / q.den| := by rw [Rat.num_div_den]
    _ = |(q.num : Rat)| / q.den := by rw [abs_div, Nat.abs_cast]

/-- Settles O24: the pattern of `|q|` is nearest to it, and the sign negates the number and the pattern's number. -/
theorem binary32ImageIsNearest : Obligations.Binary32ImageIsNearest := by
  refine ⟨by decide +kernel, fun q b hlow hhigh _ => ?_⟩
  have hlow' : (2 : Rat) ^ (-126 : Int) ≤ |q| := by simpa [zpow_neg] using hlow
  have hne : q ≠ 0 := by
    rintro rfl
    norm_num at hlow
  have hb := f32Value_wholeUnitsOrBelow b
  have habs := abs_eq_natAbs_num_div_den q
  rw [habs] at hlow' hhigh
  rcases hne.lt_or_gt with hq | hq
  · obtain ⟨hfits, hnearest, htie⟩ := magnitude32_nearest q.den_pos hlow' hhigh fun e => (hb e).neg
    have hflip (x : Rat) : |x - -q| = |-x - q| := by
      rw [← abs_neg]
      congr 1
      ring
    rw [← habs, abs_of_neg hq, hflip, hflip, neg_neg, ← f32Value_ofNat_sign hfits, ← rne32_of_neg hq] at hnearest htie
    refine ⟨hnearest, fun heq => (htie heq).imp (fun hv => ?_) fun heven => ?_⟩
    · rw [rne32_of_neg hq, f32Value_ofNat_sign hfits, ← hv, neg_neg]
    · rw [rne32_of_neg hq]
      exact getLsbD_zero_of_even (by omega)
  · obtain ⟨-, hnearest, htie⟩ := magnitude32_nearest q.den_pos hlow' hhigh hb
    rw [← habs, abs_of_pos hq, ← rne32_of_pos hq] at hnearest htie
    refine ⟨hnearest, fun heq => (htie heq).imp_right fun heven => ?_⟩
    rw [rne32_of_pos hq]
    exact getLsbD_zero_of_even heven

end Sys2Proof.Machine

/-! SUPPORT and proofs for the statements about the Device Controller (43_controller.md): admission and the operations that end
at once (R132, R133, R141), INIT's own steps (R134), the last command of an operation (R139, R144, R147, R150), calls that have
not returned (R230), the transition table (R131) and queries that end FAIL (R154). -/

namespace Sys2Proof.Machine

/-! ## Admission -/

/-- Settles O28: outside its state each of the five operations is `Refuse` (R186). -/
theorem statefulOperationsAreRefusedOutsideTheirState : Obligations.StatefulOperationsAreRefusedOutsideTheirState := by
  refine fun s hi => ⟨fun hc => guarded_of_other hi hc _, ?_⟩
  rintro hc i a (rfl | rfl | rfl | rfl) <;>
    simp only [exec, execChangeMode, execReadTemp, execReadAcc, execReadStatus, guarded_of_other hi hc] <;> rfl

/-- Settles O29: FAULTED is neither UNINIT nor OPERATIONAL, and reset leads to UNINIT from every state. -/
theorem faultedControllerRefusesAndSendsNothing : Obligations.FaultedControllerRefusesAndSendsNothing := by
  intro s i a hi hc hop
  obtain ⟨hinit, hquery⟩ := statefulOperationsAreRefusedOutsideTheirState s hi
  have hrefused : exec i s = .next s.refuse := by
    rcases hop with rfl | hop
    · exact hinit (by simp [hc])
    · exact hquery (by simp [hc]) i a hop
  exact ⟨⟨s.refuse, hrefused, rfl, ⟨rfl, rfl, rfl, rfl⟩, rfl, rfl⟩, fun rest hp => ⟨_, step_reset hp, rfl⟩⟩

/-- Every host operation asks first that none is in progress (R133). -/
theorem exec_decodeHost_whenIdle (h : HostWord) (s : State) : ∃ f, exec (decodeHost h) s = whenIdle s f := by
  unfold decodeHost
  split <;>
    simp only [exec, execReserved0, execReserved6, execReserved7, execInit, execChangeMode, execReadTemp, execReadAcc,
      execReadStatus, execCrcCompute, execCrcCheck, execEncode, execAssemble, execDecode, execConvAccel, execConvTemp,
      execSens, guarded] <;>
    exact ⟨_, rfl⟩

/-- Settles O30: a host code decodes to a host operation, which asks for an idle sequencer. -/
theorem secondOperationInFlightHasNoMeaning : Obligations.SecondOperationInFlightHasNoMeaning := by
  intro s i h hb hd
  obtain rfl : decodeHost h = i := by simpa [decode] using hd
  obtain ⟨f, hf⟩ := exec_decodeHost_whenIdle h s
  rw [hf, whenIdle_of_busy hb]

/-- Settles O33: the four selectors and their modes. -/
theorem changeModeRecordsARecognizedMode : Obligations.ChangeModeRecordsARecognizedMode := by
  intro s hi hc p hp
  obtain ⟨hmode, hsens⟩ : modeOf? p.1 = some p.2.1 ∧ sensOf p.2.1 = p.2.2 := by
    simp only [List.mem_cons, List.not_mem_nil, or_false] at hp
    rcases hp with rfl | rfl | rfl | rfl <;> exact ⟨rfl, rfl⟩
  simp only [exec, execChangeMode, guarded_of_state hi hc, hmode, hsens]
  rw [finish_of_idle]
  exact hi

/-! ## INIT's own steps -/

/-- Without reset, an INIT that stands before its first request takes one of its own steps (R134), in any controller state. -/
theorem step_of_init {s : State} {k : Nat} (hr : noReset s) (hs : s.seq = .busy .init k) (hk : k < 3) :
    step s = .next s.internalStep := by
  have hword : s.seq.fetchWord = none := by simp [hs, Seq.fetchWord, Seq.cmd?, stepsBefore, hk]
  have hinternal : s.seq.internal = true := by simp [hs, Seq.internal, hk]
  rw [step_of_busy (by simp [hs]) hr, resumeStep, hword]
  exact if_pos hinternal

/-- Settles O7: each of the three steps by its position, `open` and `configure` by what they returned. -/
theorem stepRunsInitsOwnSteps : Obligations.StepRunsInitsOwnSteps := by
  refine ⟨fun s h rest hr hs ho => ?_, fun s rest hr hs ho => ?_, fun s rest hr hs hf => ?_, fun s rest hr hs hf => ?_,
    fun s hr hs => ?_⟩
  · rw [step_of_init hr hs (by omega), internalStep_open hs, openStep_opened ho]
  · rw [step_of_init hr hs (by omega), internalStep_open hs, openStep_failed ho]
    simp [State.transportFault, State.log, faultDiag, hs]
  · rw [step_of_init hr hs (by omega), internalStep_configure hs, configureStep_configured hf]
  · rw [step_of_init hr hs (by omega), internalStep_configure hs, configureStep_failed hf]
    simp [State.transportFault, State.log, faultDiag, hs]
  · rw [step_of_init hr hs (by omega), internalStep_delay hs]
    rfl

/-! ## The success conditions -/

/-- Settles O60: on a valid response ID_REQUIRES_VALID asks nothing more, and with a good checksum a status other than 2 is
valid exactly when it is not the error code. -/
theorem alternativeChecksAgreeOnValidResponses : Obligations.AlternativeChecksAgreeOnValidResponses := by
  refine fun f => ⟨fun hv => by simp [identityOk, hv], fun hcrc hrs => ?_⟩
  have hstatus : ∀ rs : BitVec 2, rs ≠ 2#2 → statusValid rs = (rs != rsError) := by decide
  have hvalid : isValid f = statusValid (respOf f).rs := by rw [isValid, hcrc, Bool.true_and]; rfl
  rw [← respOf_rs] at hrs
  simp only [statusSuccess, respOf_isValid, hvalid, hstatus _ hrs, if_true, Bool.false_eq_true, if_false]

/-! ## The last command of an operation -/

/-- An answered command at its operation's last step ends the operation (R16). -/
theorem exec_lastCommand {s : State} {op : SeqOp} {k : Nat} {c : Cmd} {rx : Frame} {more : List (Option (List Byte))}
    (hx : s.transport.xfers = answerOf rx :: more) (hs : s.seq = .busy op k) (hc : Seq.cmd? (.busy op k) = some c)
    (hk : k + 1 = stepCount op) :
    exec c.instr s = .next (((s.answered c rx more).examine op k).complete op) := by
  rw [exec_instr, issue_answered hx (xferResult_answerOf rx) (hs ▸ hc)]
  exact congrArg _ (respond_last (by simpa using hs) hk)

/-- Settles O46: at each operation's last step, its completion with the response received. -/
theorem lastCommandsDeliverTheResult : Obligations.LastCommandsDeliverTheResult := by
  refine fun s rx more hx => ⟨fun p hp hs => ?_, fun hs => ?_, fun hs => ?_, fun hs => ?_⟩
  · obtain ⟨hinstr, hne⟩ : p.2 = (axisCmd p.1).instr ∧ axisCmd p.1 ≠ .writeMode3 := by
      simp only [List.mem_cons, List.not_mem_nil, or_false] at hp
      rcases hp with rfl | rfl | rfl <;> exact ⟨rfl, by simp [axisCmd]⟩
    rw [hinstr]
    refine ⟨_, exec_lastCommand hx hs rfl rfl, rfl, ?_, rfl, rfl, fun hv => ?_⟩
    · simp [State.complete, State.examine]
    · exact ⟨convAccel (rx.b1 ++ rx.b2) s.sens, rne32 (convAccel (rx.b1 ++ rx.b2) s.sens),
        by simp [State.complete, State.examine, accSuccess, accValue, hv, hne], rfl⟩
  · refine ⟨_, exec_lastCommand (c := .readTemp) hx hs rfl rfl, rfl, rfl, tempSuccess_respOf rx, ?_, fun hv => ?_⟩
    · rw [← tempSuccess_respOf]
      rfl
    · exact ⟨convTemp (rx.b1 ++ rx.b2), rne32 (convTemp (rx.b1 ++ rx.b2) / 100),
        by simp [State.complete, State.examine, tempSuccess_respOf, tempValue, hv], convTemp_eq _⟩
  · refine ⟨_, exec_lastCommand (c := .readStatus) hx hs rfl rfl, rfl, rfl, ?_, ?_⟩
    · by_cases herr : rx.b0.extractLsb' 0 2 = 3#2 <;>
        simp [State.complete, State.examine, statusSuccess, Config.statusRequiresCrc, rsError, codeOf, herr]
    · simp [State.complete, State.examine, statusDiag, rsError]
  · exact ⟨_, exec_lastCommand (c := .readTemp) hx hs rfl rfl, rfl, rfl, rfl, rfl, rfl⟩

/-! ## Calls that have not returned -/

/-- An operation that has not ended waits: without reset, further steps change nothing (R133, R230). -/
theorem step_perform_waits {s t : State} {op : SeqOp} (hr : noReset s) (hl : (Seq.busy op 0).legal s.cstate)
    (ht : s.perform op = t) (hb : t.seq ≠ .idle) : step t = .next t := by
  subst ht
  have hrun := perform_inRun hl
  have hr' : noReset (s.perform op) := fun rest => by rw [hrun.port]; exact hr rest
  have hfixed : (s.perform op).seqStep = s.perform op := runSeq_settled (by simp [Seq.endsWithin])
  rw [step_of_busy hb hr', resumeStep_of_legal hb hrun.legal, hfixed]

/-- READ_ACC with an axis in OPERATIONAL is its run. -/
theorem exec_readAcc {s : State} {sel : Word} {a : Axis} (hi : s.seq = .idle) (hc : s.cstate = .operational)
    (hsel : axisOf? sel = some a) : exec (.readAcc sel) s = .next (s.perform (.readAcc a)) := by
  simp only [exec, execReadAcc, guarded_of_state hi hc, hsel]

/-- Settles O42: INIT stands at `open`, at `configure` or at the request after the last answer, a query at such a request. -/
theorem operationsWaitForACallThatHasNotReturned : Obligations.OperationsWaitForACallThatHasNotReturned := by
  refine ⟨fun s hi hc hr ho => ?_, fun s d opens hi hc hr ho hf => ?_, fun s d opens confs rxs hi hc hn hr hx => ?_,
    fun s i op reqs rxs hmem hi hc hn hr hx => ?_⟩
  · have hend := perform_init_openWaits ho
    exact ⟨_, exec_init hi hc, hend, step_perform_waits (op := .init) hr hc rfl (by simp [hend])⟩
  · have hend := perform_init_configureWaits ho hf
    exact ⟨_, exec_init hi hc, step_perform_waits (op := .init) hr hc rfl (by simp [hend, State.afterOpen]), hend⟩
  · obtain ⟨r, c, hrun, hget, hrest⟩ := runSeq_waits (op := .init) (rxs := rxs) (s := s.poweredUp d opens confs) rfl hn
      (by simp [State.poweredUp, hx])
    have hend : s.perform .init = r.present c := by rw [perform_init_poweredUp (by rw [hx]) (by rw [hx]), hrest]
    have hseq : (r.present c).seq = .busy .init (3 + rxs.length) := by simp [hrun.seq, stepsBefore]
    obtain ⟨hmode, hsens⟩ := hrun.present_mode hget
    refine ⟨r.present c, c.word, settle c, by rw [← requests_init]; exact requests_getElem? hget,
      (exec_init hi hc).trans (congrArg _ hend), ?_, ?_, hseq, ?_, by simp, hmode, hsens, ?_, ?_, ?_,
      step_perform_waits (op := .init) hr hc hend (by rw [hseq]; simp)⟩
    · simp [hrun.cstate, State.poweredUp]
    · simp [hrun.handle, State.poweredUp]
    · simp [hrun.result, State.poweredUp]
    · simp [hrun.trace, State.poweredUp, requests_init]
    · simp [hrun.port, State.poweredUp]
    · simp [hrun.transport, State.poweredUp]
  · obtain ⟨hq, rfl, hexec⟩ : op.IsQuery ∧ requests op = reqs ∧ exec i s = .next (s.perform op) := by
      simp only [List.mem_cons, Prod.mk.injEq, List.not_mem_nil, or_false] at hmem
      rcases hmem with ⟨rfl, rfl, rfl⟩ | ⟨rfl, rfl, rfl⟩ | ⟨rfl, rfl, rfl⟩ | ⟨rfl, rfl, rfl⟩ | ⟨rfl, rfl, rfl⟩
      · exact ⟨.inl rfl, by decide, guarded_of_state hi hc _⟩
      · exact ⟨.inr (.inl ⟨_, rfl⟩), requests_readAcc .x, exec_readAcc hi hc rfl⟩
      · exact ⟨.inr (.inl ⟨_, rfl⟩), requests_readAcc .y, exec_readAcc hi hc rfl⟩
      · exact ⟨.inr (.inl ⟨_, rfl⟩), requests_readAcc .z, exec_readAcc hi hc rfl⟩
      · exact ⟨.inr (.inr rfl), by decide, guarded_of_state hi hc _⟩
    rw [requests_length] at hn
    obtain ⟨r, c, hrun, hget, hrest⟩ := runSeq_waits (s := { s with seq := .busy op (stepsBefore op) }) rfl hn hx
    obtain ⟨⟨hcs, hh, hm, hse⟩, hsuccess, hid⟩ := hrun.query_frame hq
    have hne : c ≠ .writeMode3 := hq.ne_writeMode3 (List.mem_of_getElem? hget)
    have hend : s.perform op = r.present c := by rw [perform_query hq, hrest]
    have hseq : (r.present c).seq = .busy op rxs.length := by simp [hrun.seq, hq.stepsBefore]
    have htrace : r.trace = s.trace ++ exchanges s.handle (requests op) rxs := hrun.trace
    exact ⟨r.present c, c.word, settle c, requests_getElem? hget, hexec.trans (congrArg _ hend),
      ⟨by simp [hcs], by simp [hh], by simp [State.present_mode, hne, hm], by simp [State.present_sens, hne, hse]⟩, hseq,
      by simp [hrun.result], by simp, by simp [hsuccess], by simp [hid], by simp [htrace], by simp [hrun.port],
      by simp [hrun.transport], step_perform_waits hr (legal_query_start hc hq) hend (by rw [hseq]; simp)⟩

/-! ## The transition table -/

/-- The row of the table of R131 from the controller state of `s` to that of `t`, or no change; a failed call is the last event
on the way into FAULTED (R190). -/
def State.Transition (s t : State) : Prop :=
  t.cstate = s.cstate ∨
  (s.cstate = .uninit ∧ (t.cstate = .initializing ∨ t.cstate = .operational)) ∨
  (s.cstate = .initializing ∧ t.cstate = .operational) ∨
  (s.cstate ≠ .faulted ∧ t.cstate = .faulted ∧ ∃ e, t.trace.getLast? = some e ∧ e.failed = true)

/-- Transitions through a state that is not FAULTED follow one another. -/
theorem State.Transition.trans {r s t : State} (h : r.Transition s) (hs : s.cstate ≠ .faulted) (h' : s.Transition t) :
    r.Transition t := by
  rcases h' with heq | ⟨hun, hto⟩ | ⟨hin, hop⟩ | ⟨-, hfault, hlast⟩
  · simpa only [State.Transition, heq, hs, false_and, and_false, or_false] using h
  · have hr : .uninit = r.cstate := by simpa [State.Transition, hun] using h
    exact .inr (.inl ⟨hr.symm, hto⟩)
  · have hr : .initializing = r.cstate ∨ r.cstate = .uninit := by simpa [State.Transition, hin] using h
    exact hr.elim (fun hr => .inr (.inr (.inl ⟨hr.symm, hop⟩))) fun hr => .inr (.inl ⟨hr, .inr hop⟩)
  · have hr : r.cstate ≠ .faulted := fun hr => by simp [State.Transition, hr, hs] at h
    exact .inr (.inr (.inr ⟨hr, hfault, hlast⟩))

/-- A failed call, logged before the transport fault, is the table's way into FAULTED (R190). -/
theorem State.Transition.of_fault {s t : State} {e : Event} (hs : s.cstate ≠ .faulted) (he : e.failed = true) :
    s.Transition (t.log e).transportFault :=
  .inr (.inr (.inr ⟨hs, rfl, e, by simp, he⟩))

/-- One step of the operation in progress makes a transition of the table. -/
theorem SeqEffect.transition {s t : State} {op : SeqOp} {k : Nat} (he : SeqEffect s t) (hs : s.seq = .busy op k)
    (hl : s.seq.legal s.cstate) : s.Transition t := by
  have hnf : s.cstate ≠ .faulted := cstate_ne_faulted_of_legal (hs ▸ hl)
  cases he with
  | hold ht => exact .inl (by rw [ht])
  | opened d rest hs0 ht => exact .inr (.inl ⟨by simpa [hs0, Seq.legal] using hl, .inl (by rw [ht])⟩)
  | openFailed rest hs0 ht => rw [ht]; exact .of_fault hnf rfl
  | configured rest hs1 ht => exact .inl (by rw [ht])
  | configureFailed rest hs1 ht => rw [ht]; exact .of_fault hnf rfl
  | delayed hs2 ht => exact .inl (by rw [ht])
  | waiting c hc hx ht => exact .inl (by simp [ht])
  | failed c a rest hc hx ha ht => rw [ht]; exact .of_fault hnf rfl
  | advanced op k c rx rest hs' hc hx hk ht => exact .inl (by simp [ht])
  | finished op k c rx rest hs' hc hx hk ht =>
    obtain ⟨-, -, -, -, -, -, -, -, hcst⟩ := complete_fields ((s.answered c rx rest).examine op k) op
    rw [← ht] at hcst
    by_cases hop : op = .init
    · subst hop
      obtain ⟨j, rfl⟩ : ∃ j, k = j + 1 := ⟨10, by simpa [stepCount, stepsBefore, expansion] using hk⟩
      exact .inr (.inr (.inl ⟨initializing_of_legal hl hs', by simp [hcst]⟩))
    · exact .inl (by simp [hcst, hop])

/-- What a run of the sequencer from `s` keeps: a legal position, reached by transitions of the table. -/
def State.TransitionTo (s t : State) : Prop := t.seq.legal t.cstate ∧ s.Transition t

theorem seqStep_transitionTo {s : State} (t : State) (h : s.TransitionTo t) : s.TransitionTo t.seqStep := by
  obtain ⟨hl, htr⟩ := h
  cases ht : t.seq with
  | idle => rw [seqStep_idle ht]; exact ⟨hl, htr⟩
  | busy op k =>
    have he := seqStep_effect ht hl
    exact ⟨he.legal hl, htr.trans (cstate_ne_faulted_of_legal (ht ▸ hl)) (he.transition ht hl)⟩

/-- An accepted operation's transitions taken together are one of the table's, or INIT's from UNINIT. -/
theorem perform_transition {s : State} {op : SeqOp} (hl : (Seq.busy op 0).legal s.cstate) : s.Transition (s.perform op) := by
  obtain ⟨-, htr⟩ := runSeq_keeps (seqStep_transitionTo (s := s)) (stepCount op) { s with seq := .busy op 0 } ⟨hl, .inl rfl⟩
  exact htr

theorem HostEffect.transition {h : HostWord} {s t : State} (he : HostEffect h s t) : s.Transition t := by
  cases he with
  | quiet hq => exact .inl hq.cstate
  | modeChanged m hc hop hm hse hq => exact .inl hq.cstate
  | init hc hop ht => rw [ht]; exact perform_transition hc
  | query op hc hop ht => rw [ht]; exact perform_transition (legal_query_start hc hop)

/-- Settles O53: a step of the operation in progress makes one transition, an accepted operation those of its run. -/
theorem onlyTheStatedTransitionsHappen : Obligations.OnlyTheStatedTransitionsHappen := by
  intro s t h hr hstep
  obtain ⟨rest, hp, -⟩ | ⟨-, he⟩ := step_cases h.sequencer hstep
  · exact absurd hp (hr rest)
  cases he with
  | resumed hb ht =>
    cases hs : s.seq with
    | idle => exact absurd hs hb
    | busy op k => rw [ht]; exact (seqStep_effect hs h.sequencer).transition hs h.sequencer
  | waited hi hp ht => exact .inl (by rw [ht])
  | accepted w rest hi hp he => exact he.transition

/-! ## Queries that end FAIL -/

/-- One step of a query keeps the controller, or is the transport fault, which ends it with FAULT (R154, R190). -/
theorem SeqEffect.query_controller {s t : State} {op : SeqOp} {k : Nat} (he : SeqEffect s t) (hs : s.seq = .busy op k)
    (hq : op.IsQuery) : sameController s t ∨ (t.seq = .idle ∧ t.result.outcome = .fault) := by
  have hinit {j : Nat} : s.seq ≠ .busy .init j := by simp [hs, hq.ne_init]
  have hne {c : Cmd} (hc : s.seq.cmd? = some c) : c ≠ .writeMode3 := hq.ne_writeMode3 (cmd?_some (hs ▸ hc)).2.2
  cases he with
  | hold ht => exact .inl (by simp [ht, sameController])
  | opened d rest hs0 ht => exact absurd hs0 hinit
  | openFailed rest hs0 ht => exact absurd hs0 hinit
  | configured rest hs1 ht => exact absurd hs1 hinit
  | configureFailed rest hs1 ht => exact absurd hs1 hinit
  | delayed hs2 ht => exact absurd hs2 hinit
  | waiting c hc hx ht =>
    exact .inl (by simp [ht, sameController, State.present_mode, State.present_sens, hne hc])
  | failed c a rest hc hx ha ht => exact .inr (by simp [ht])
  | advanced op' k' c rx rest hs' hc hx hk ht => exact .inl (by simp [ht, sameController, hne hc])
  | finished op' k' c rx rest hs' hc hx hk ht =>
    obtain ⟨hh, hm, hse, -, -, -, -, -, hcst⟩ := complete_fields ((s.answered c rx rest).examine op' k') op'
    have hop : op' ≠ .init := fun hop => hinit (hop ▸ hs')
    exact .inl (by simp [ht, sameController, hh, hm, hse, hcst, hop, hne hc])

/-- What a query's run from `s` keeps: a legal position in a query, and the controller unless a transfer has failed. -/
structure State.QueryRun (s t : State) : Prop where
  legal : t.seq.legal t.cstate
  inQuery : ∀ op k, t.seq = .busy op k → op.IsQuery
  controller : sameController s t ∨ (t.seq = .idle ∧ t.result.outcome = .fault)

theorem seqStep_queryRun {s : State} (t : State) (h : s.QueryRun t) : s.QueryRun t.seqStep := by
  cases ht : t.seq with
  | idle => rwa [seqStep_idle ht]
  | busy op k =>
    have he := seqStep_effect ht h.legal
    obtain ⟨hop, -⟩ := he.frame h.legal
    exact {
      legal := he.legal h.legal
      inQuery := fun op' k' hs => (hop op' k' hs).elim fun j hj => h.inQuery op' j hj
      controller := by
        rcases h.controller with ⟨hc, hh, hm, hse⟩ | ⟨hidle, -⟩
        · refine (he.query_controller ht (h.inQuery op k ht)).imp_left fun ⟨hc', hh', hm', hse'⟩ => ?_
          exact ⟨hc'.trans hc, hh'.trans hh, hm'.trans hm, hse'.trans hse⟩
        · simp [ht] at hidle }

/-- A query that does not end FAULT keeps the controller, whether it has ended or waits. -/
theorem perform_query_controller {s : State} {op : SeqOp} (hq : op.IsQuery) (hc : s.cstate = .operational)
    (hnf : (s.perform op).result.outcome ≠ .fault) : sameController s (s.perform op) := by
  have hrun : s.QueryRun (s.perform op) := runSeq_keeps seqStep_queryRun (stepCount op) _ {
    legal := legal_query_start hc hq
    inQuery := fun op' k hs => by
      obtain ⟨rfl, -⟩ : op = op' ∧ 0 = k := by simpa using hs
      exact hq
    controller := .inl ⟨rfl, rfl, rfl, rfl⟩ }
  exact hrun.controller.resolve_right fun ⟨_, hfault⟩ => hnf hfault

/-- Settles O59: a query that is run keeps the controller unless it ends FAULT, and an invalid axis writes `success` and the
result alone. -/
theorem failedQueryKeepsTheController : Obligations.FailedQueryKeepsTheController := by
  intro s t i a hi hc hquery hexec hfail
  have hrun {op : SeqOp} (hq : op.IsQuery) (ht : exec i s = .next (s.perform op)) : sameController s t := by
    obtain rfl : s.perform op = t := by simpa [ht] using hexec
    exact perform_query_controller hq hc (by simp [hfail])
  rcases hquery with rfl | rfl | rfl
  · exact hrun (.inl rfl) (guarded_of_state hi hc _)
  · cases hsel : axisOf? a with
    | some axis => exact hrun (.inr (.inl ⟨axis, rfl⟩)) (exec_readAcc hi hc hsel)
    | none =>
      simp only [exec, execReadAcc, guarded_of_state hi hc, hsel, Host.Outcome.next.injEq] at hexec
      rw [← hexec]
      exact ⟨rfl, rfl, rfl, rfl⟩
  · exact hrun (.inr (.inr rfl)) (guarded_of_state hi hc _)

end Sys2Proof.Machine

/-! Proof for the statement about failures (60_exceptions.md): no failed transport call is swallowed (R203). -/

namespace Sys2Proof.Machine

/-- From `s` to `t` calls are appended to the trace, and if one of them failed then the outcome is FAULT and the controller is
FAULTED (R203). -/
def State.ReportsFailures (s t : State) : Prop :=
  ∃ es, t.trace = s.trace ++ es ∧ ((∃ e ∈ es, e.failed = true) → t.result.outcome = .fault ∧ t.cstate = .faulted)

theorem State.ReportsFailures.of_succeeded {s t : State} {es : List Event} (htr : t.trace = s.trace ++ es)
    (hes : ∀ e ∈ es, e.failed = false) : s.ReportsFailures t :=
  ⟨es, htr, fun ⟨e, he, hf⟩ => absurd hf (by simp [hes e he])⟩

theorem State.ReportsFailures.of_trace {s t : State} (htr : t.trace = s.trace) : s.ReportsFailures t :=
  .of_succeeded (es := []) (by simp [htr]) (by simp)

/-- The transport fault reports whatever call was logged before it (R190). -/
theorem State.ReportsFailures.of_fault {s t : State} (e : Event) (htr : t.trace = s.trace) :
    s.ReportsFailures (t.log e).transportFault :=
  ⟨[e], by simp [htr], fun _ => ⟨rfl, rfl⟩⟩

/-- An answered request makes no failed call, whatever the step then does with the response. -/
theorem State.ReportsFailures.of_answered {s t : State} {c : Cmd} {rx : Frame} {rest : List (Option (List Byte))}
    (htr : t.trace = (s.answered c rx rest).trace) : s.ReportsFailures t :=
  .of_succeeded (htr.trans (s.answered_trace c rx rest)) (by simp [Event.failed])

/-- Where the controller is not FAULTED nothing has failed so far, so what follows reports every failure. -/
theorem State.ReportsFailures.trans {r s t : State} (h : r.ReportsFailures s) (hs : s.cstate ≠ .faulted)
    (h' : s.ReportsFailures t) : r.ReportsFailures t := by
  obtain ⟨es, htr, hes⟩ := h
  obtain ⟨es', htr', hes'⟩ := h'
  refine ⟨es ++ es', by rw [htr', htr, List.append_assoc], fun ⟨e, he, hf⟩ => ?_⟩
  rcases List.mem_append.mp he with he | he
  · exact absurd (hes ⟨e, he, hf⟩).2 hs
  · exact hes' ⟨e, he, hf⟩

/-- One step of the operation in progress reports its failed call: the three ways to fail are the transport fault, and the
calls of the other steps succeeded. -/
theorem SeqEffect.reportsFailures {s t : State} (he : SeqEffect s t) : s.ReportsFailures t := by
  cases he with
  | hold ht => exact .of_trace (by rw [ht])
  | opened d rest hs ht => rw [ht]; exact .of_succeeded rfl (by simp [Event.failed])
  | openFailed rest hs ht => rw [ht]; exact .of_fault _ rfl
  | configured rest hs ht => rw [ht]; exact .of_succeeded rfl (by simp [Event.failed])
  | configureFailed rest hs ht => rw [ht]; exact .of_fault _ rfl
  | delayed hs ht => rw [ht]; exact .of_succeeded rfl (by simp [Event.failed])
  | waiting c hc hx ht => exact .of_trace (by simp [ht])
  | failed c a rest hc hx ha ht => rw [ht]; exact .of_fault _ (by simp)
  | advanced op k c rx rest hs hc hx hk ht => exact .of_answered (c := c) (rx := rx) (rest := rest) (by simp [ht])
  | finished op k c rx rest hs hc hx hk ht =>
    obtain ⟨-, -, -, -, -, htr, -, -, -⟩ := complete_fields ((s.answered c rx rest).examine op k) op
    exact .of_answered (c := c) (rx := rx) (rest := rest) (by simp [ht, htr])

/-- What a run of the sequencer from `s` keeps: a legal position, and every failure reported. -/
def State.ReportedFrom (s t : State) : Prop := t.seq.legal t.cstate ∧ s.ReportsFailures t

theorem seqStep_reportedFrom {s : State} (t : State) (h : s.ReportedFrom t) : s.ReportedFrom t.seqStep := by
  obtain ⟨hl, hrep⟩ := h
  cases ht : t.seq with
  | idle => rw [seqStep_idle ht]; exact ⟨hl, hrep⟩
  | busy op k =>
    have he := seqStep_effect ht hl
    exact ⟨he.legal hl, hrep.trans (cstate_ne_faulted_of_legal (ht ▸ hl)) he.reportsFailures⟩

/-- An accepted operation reports the failed call that ends its run. -/
theorem perform_reportsFailures {s : State} {op : SeqOp} (hl : (Seq.busy op 0).legal s.cstate) :
    s.ReportsFailures (s.perform op) := by
  obtain ⟨-, hrep⟩ :=
    runSeq_keeps (seqStep_reportedFrom (s := s)) (stepCount op) { s with seq := .busy op 0 } ⟨hl, .of_trace rfl⟩
  exact hrep

theorem HostEffect.reportsFailures {h : HostWord} {s t : State} (he : HostEffect h s t) : s.ReportsFailures t := by
  cases he with
  | quiet hq => exact .of_trace hq.trace
  | modeChanged m hc hop hm hse hq => exact .of_trace hq.trace
  | init hc hop ht => rw [ht]; exact perform_reportsFailures hc
  | query op hc hop ht => rw [ht]; exact perform_reportsFailures (legal_query_start hc hop)

theorem StepEffect.reportsFailures {s t : State} (he : StepEffect s t) (hl : s.seq.legal s.cstate) :
    s.ReportsFailures t := by
  cases he with
  | resumed hb ht =>
    cases hs : s.seq with
    | idle => exact absurd hs hb
    | busy op k => rw [ht]; exact (seqStep_effect hs hl).reportsFailures
  | waited hi hp ht => exact .of_trace (by rw [ht])
  | accepted w rest hi hp he => exact he.reportsFailures

/-- Settles O54: a step without reset reports the failures among the events it appends, and these are `es`. -/
theorem noFailedCallIsSwallowed : Obligations.NoFailedCallIsSwallowed := by
  intro s t es h hr hstep htr hfail
  obtain ⟨rest, hp, -⟩ | ⟨-, he⟩ := step_cases h.sequencer hstep
  · exact absurd hp (hr rest)
  obtain ⟨es', htr', hrep⟩ := he.reportsFailures h.sequencer
  obtain rfl : es = es' := List.append_cancel_left (htr.symm.trans htr')
  exact hrep hfail

end Sys2Proof.Machine
